-- ==== Sys2Proof/Word.lean ====
section
/-!
DEFINITION. The word types of the drive: bytes, the 32-bit management-register word (R5) and the
64-bit words of hashes, versions and stamps.
-/
namespace Sys2Proof

/-- One byte. -/
abbrev Byte := BitVec 8

/-- One management register (R5: 32 bits wide). -/
abbrev Word := BitVec 32

/-- A keyed hash, a version or a calendar stamp (R137, R138, R243). -/
abbrev DWord := BitVec 64

end Sys2Proof
end

