-- ==== Sys2Proof/Syntax.lean ====
section
/-!
DEFINITION. The commands the drive takes: one constructor of `Instr` for each row of the table of
operations and events, with the row's operands. Whatever the spec leaves to the world or to chance
(what arrives on a wire, what a sensor reads, how a signature check ends, which free place the
firmware picks) is an operand, so a statement about a command holds for every choice.
-/
namespace Sys2Proof

/-- The three ports (Table 2-1). -/
inductive PortId where
  | a | b | c
  deriving DecidableEq, Repr

/-- Port number p of R596. -/
def PortId.idx : PortId → Nat
  | .a => 0 | .b => 1 | .c => 2

/-- The two HOLD inputs of Table 13-2. -/
inductive HoldIn where
  | holdA | holdB
  deriving DecidableEq, Repr

/-- The three discrete inputs of Table 13-2. -/
inductive Discrete where
  | holdA | holdB | rstInN
  deriving DecidableEq, Repr

/-- The functions FUNCTION_RESET names (R168). -/
inductive Fn where
  | port (p : PortId) | sessionEngine | policyMatcher | dispatcher
  | swath (n : Fin 16) | notification | eventRecorder | drive
  deriving DecidableEq, Repr

/-- The requester paths of R387 into a function's registers. -/
inductive ReqPath where
  | steward | session | notify
  deriving DecidableEq, Repr

/-- One 802.1Q tag of a frame. -/
structure VlanTag where
  tpid : BitVec 16
  pcp  : BitVec 3
  vid  : BitVec 12
  deriving DecidableEq, Repr

/-- Where a frame's destination address points, seen from the port (Table 2-3). -/
inductive DstMac where
  | own | broadcast
  | ptpMulticast      -- 01-1B-19-00-00-00
  | llMulticast       -- 01-80-C2-00-00-0E
  | pauseMulticast    -- 01-80-C2-00-00-01
  | solicitedNode
  | foreign
  deriving DecidableEq, Repr

/-- Which of the port's addresses an IP packet names (DST_SEL of Table 6-1; R33, R34). -/
inductive DstIp where
  | v4 | linkLocal | second | solicited | other
  deriving DecidableEq, Repr

/-- The header fields of an IPv4 or IPv6 packet that R33 and R34 judge. -/
structure IpHdr where
  v6       : Bool
  version  : Nat
  ihl      : Nat            -- IPv4 header length in words
  lenFits  : Bool           -- total or payload length fits the frame
  mf       : Bool
  fragOff  : Nat
  csumOk   : Bool
  nextHdr  : Nat            -- protocol of IPv4, next header of IPv6
  dst      : BitVec 128     -- IPv4 in the form ::FFFF:a.b.c.d, as in src
  src      : BitVec 128
  dscp     : BitVec 6
  ecn      : BitVec 2
  deriving DecidableEq, Repr

/-- The UDP checksum as the receiver finds it (R35). -/
inductive UdpCsum where
  | good | bad | zero
  deriving DecidableEq, Repr

/-- The 32-byte SKP header of Table 3-1. -/
structure SkpHdr where
  version    : BitVec 8
  flags      : BitVec 8
  session    : BitVec 16
  seq        : BitVec 32
  ack        : BitVec 32
  tag        : BitVec 16
  opcode     : BitVec 8
  status     : BitVec 8
  keySpace   : BitVec 16
  fragIndex  : BitVec 16
  fragCount  : BitVec 16
  fragLen    : BitVec 16
  msgLen     : BitVec 32
  fragOffset : BitVec 32
  deriving DecidableEq, Repr

/-- One SKP frame: its header, the UDP payload length on the wire, the plaintext payload and, for a
sealed frame, whether its GCM tag verifies under the key of the epoch it was sealed in (the current
epoch, or the previous one when `oldKey` is true). -/
structure SkpFrame where
  hdr     : SkpHdr
  udpLen  : Nat
  payload : List Byte
  tagOk   : Bool
  oldKey  : Bool
  deriving DecidableEq, Repr

/-- A UDP datagram's IP header, source port and checksum as found. -/
structure UdpOver where
  ip      : IpHdr
  srcPort : BitVec 16
  csum    : UdpCsum
  deriving DecidableEq, Repr

/-- What a frame carries. -/
inductive FrameBody where
  | udp (ip : IpHdr) (srcPort dstPort : BitVec 16) (csum : UdpCsum) (skp : SkpFrame)
  | arp (target : Word) (asker : BitVec 128)   -- ARP request for an IPv4 address, and who asks
  | nsol (ip : IpHdr) (target : BitVec 128)    -- IPv6 neighbour solicitation for an address
  | icmp (ip : IpHdr)                          -- ICMP or ICMPv6 echo request
  | ptp (ip : Option UdpOver) (event : Bool)   -- PTP event or general message, to UDP 319 or 320; none over
                                               -- EtherType 0x88F7
  | lldp
  | pause (quanta : Nat)                       -- 802.3 pause
  | pfc (times : List (Fin 8 × Nat))           -- 802.1Qbb: classes named, each with its quanta
  | other                                      -- any other frame type
  deriving DecidableEq, Repr

/-- A frame as it arrives on a port. `size` counts from the destination address to the FCS. -/
structure Frame where
  size      : Nat
  symbolErr : Bool
  fecFixed  : Nat           -- FEC codewords corrected while it arrived (0 without FEC)
  fecBad    : Nat           -- FEC codewords not correctable
  fcsOk     : Bool
  dst       : DstMac
  tags      : List VlanTag
  srcMac    : BitVec 48
  body      : FrameBody
  deriving DecidableEq, Repr

/-- The outcome of checking the host's certificate chain and signature in phase 3 (R108), and the
anchor its last certificate verifies under. -/
structure ChainVerdict where
  sigOk     : Bool
  chainOk   : Bool
  anchor    : Option Nat
  notBefore : Nat
  notAfter  : Nat
  deriving DecidableEq, Repr

/-- What the drive draws and signs for SESSION_OPEN phase 2 (Table 3-8). -/
structure OpenDraw where
  driveNonce : List Byte
  driveEph   : List Byte
  ephPriv    : List Byte      -- the private key of driveEph
  driveSig   : List Byte
  deriving DecidableEq, Repr

/-- Where the swath's firmware places a key record and a value extent, in 512-byte units of its
logical space (R251, R256), and how many bits the read-back of the journal line of its record corrects: 7 are too
many (R372, R373). -/
structure Alloc where
  recLoc : Nat
  extLoc : Nat
  line   : Fin 8
  deriving DecidableEq, Repr

/-- How a codeword read ended under Table 8-9. -/
inductive Decoded where
  | hard | retry (entry : Nat) | soft | parity | fail
  deriving DecidableEq, Repr

/-- One unit moved by a program: the map unit, the map entry read as the source and the physical page
address written (R285, R286). -/
structure UnitMove where
  unit : Nat
  src  : BitVec 32
  dst  : Nat
  deriving DecidableEq, Repr

/-- Who moved the units of a program: a drain, tedding, gleaning or the metadata stream. -/
inductive Mover where
  | drain | tedding | gleaning | metadata
  deriving DecidableEq, Repr

/-- The die operations of Table 12-2. -/
inductive NandOp where
  | read | program | erase
  deriving DecidableEq, Repr

/-- Who asks for tokens (R425): a host read or key-record read, a mover, or a die scan. -/
inductive Asker where
  | host | mover (m : Mover) | scan
  deriving DecidableEq, Repr

/-- A request for the tokens of a die operation, made since the step before (R425). -/
structure TokenAsk where
  op  : NandOp
  by_ : Asker
  die : Fin 32
  deriving DecidableEq, Repr

/-- What lies at a granule of a swath's DRAM (Table 7-3): the region and, where the region holds things
the host can see, which of them. A spare page or the test area stands for the region it serves. -/
inductive DramAt where
  | pageMap | indexMain | indexOverflow
  | valueCache (loc : Nat)
  | retention (sid seq idx : Nat)
  | buffer (unit : Nat) (quarter : Fin 4)
  | working
  | spare (serves : DramAt)
  | testArea
  deriving DecidableEq, Repr

/-- A read of a granule of a swath's DRAM, and the bits of one of its beats that have flipped since the last access. -/
structure DramHit where
  granule : Nat
  beat    : Fin 16
  at_     : DramAt
  err     : List Byte
  deriving DecidableEq, Repr

/-- Masters of SW_MEM_UE_INFO whose reads go with a command: core loads, DMA, the index engine, the cipher. -/
inductive DramMaster where
  | load | dma | index | cipher
  deriving DecidableEq, Repr

/-- What a command that becomes eligible meets: whether the tag of the key's record verifies, and the reads of DRAM made
for it that find something (R342, R357). -/
structure ChainRead where
  recOk : Bool
  reads : List (DramMaster × DramHit)
  deriving DecidableEq, Repr

/-- Why a core traps or a load fails (R355, R357, R580): the steward's fetch, a word of a swath's code SRAM, a swath
core's fetch or load from DRAM, and the test load of BIST firmware. -/
inductive CoreFault where
  | steward
  | code (n : Fin 16)
  | fetch (n : Fin 16) (hit : DramHit)
  | load (n : Fin 16) (hit : DramHit)
  | testLoad (n : Fin 16)
  deriving DecidableEq, Repr

/-- A write of part of a DRAM beat (R344): the beat, the bits of its ten bytes that have flipped, and the new bytes
with the position of the first. Eight new bytes write the whole beat, and nothing is read. -/
structure BeatWrite where
  granule : Nat
  beat    : Fin 16
  at_     : DramAt
  err     : List Byte
  first   : Fin 8
  new     : List Byte
  deriving DecidableEq, Repr

/-- The use of a port's transmit capacity a rate step is decided on, and that of the other fabric port where both
meet their condition (R62 to R65). -/
structure StepLoad where
  pct   : Nat
  other : Option Nat
  deriving DecidableEq, Repr

/-- The port whose next held frame commits, and the microseconds since the responses of the request it repeats
were last sent again (R102). -/
structure CommitAt where
  port    : PortId
  sinceUs : Nat
  deriving DecidableEq, Repr

/-- A fragment of a message, and whether the message belongs to the previous epoch (R116). -/
structure FragAt where
  idx : Nat
  old : Bool
  deriving DecidableEq, Repr

/-- The swath whose pass of checkpoints ends, and how many bits the read-backs of the pass's journal lines corrected, 7
being too many (R373). -/
structure PassEnd where
  sw    : Fin 16
  lines : List (Fin 8)
  deriving DecidableEq, Repr

/-- The region whose gap moves, and how many bits the read-back of the line copied corrected (R373, R374). -/
structure GapMove where
  region : Fin 64
  line   : Fin 8
  deriving DecidableEq, Repr

/-- The die an operation ends on, and the requests for tokens made on its swath since the last one (R424). -/
structure DieAt where
  die : Fin 32
  ask : List TokenAsk
  deriving DecidableEq, Repr

/-- The die a program ends on, with the requests for tokens, and the 64-byte lines of packing pages that its drain could
not read (R375). -/
structure ProgAt where
  die   : Fin 32
  ask   : List TokenAsk
  lines : List (Nat × Nat)
  deriving DecidableEq, Repr

/-- What a swath's replay meets: superblocks with a program cut off (R308), a ring record whose CRC fails
(R266; true: its line is unreadable, R375), a flush seal that fails its CRC (R207), the buffer units and
quarters in unreadable lines of the flush area, and unreadable lines of packing pages (R375). -/
structure ReplayLoss where
  cut : List Nat
  bad : Option (Nat × Bool)
  sealBad : Bool
  lines : List (Nat × Nat)
  pack  : List (Nat × Nat)
  deriving DecidableEq, Repr

/-- The SRAMs of Table 10-2, and a single-bit error in a swath's or in the host port's and steward's (R367). A receive-pool
cell holds part of a frame that waits at its port, by its place, or of a message held, by the fragment's offset. -/
inductive SramKind where
  | codeSwath (n : Fin 16) | codeSteward
  | swathMeta (n : Fin 16)
  | rxCell (p : PortId) (k : Nat)
  | rxHeld (sid seq off : Nat)
  | single (sw : Option (Fin 16))
  | frontCache (entry : Nat)
  | retention (sid seq idx : Nat)
  | sessionOther
  | matcherOther | dispatcherOther | portOther (p : PortId)
  | stewardOther
  deriving DecidableEq, Repr

/-- What a sweep of the TCAM finds at an entry (R369). -/
inductive SweepFind where
  | clean | single | double
  deriving DecidableEq, Repr

/-- The requester of a claim or a completion: the target's own master, or another one (R393, R396). -/
inductive IrqMaster where
  | own | other
  deriving DecidableEq, Repr

/-- A droop-sensor island by its number in PWR_DROOP_SEL (Table 12-8). -/
abbrev Island := Nat

/-- An Announce message as R494 judges it. -/
structure Announce where
  domain      : Nat
  utcValid    : Bool
  timeTrace   : Bool
  gm          : BitVec 64
  utcOffset   : Nat
  better      : Bool      -- the best master clock algorithm of IEEE 1588-2019 prefers it to the chosen one
  leap61      : Bool
  leap59      : Bool
  deriving DecidableEq, Repr

/-- A chain frame (R532): its header fields, its payload and whether its CRC-32C is good. -/
structure ChainFrame where
  hop     : Nat
  offset  : Nat
  xfer    : BitVec 32
  payload : List Byte
  crcOk   : Bool
  deriving DecidableEq, Repr

/-- The outcome of the cryptographic items of the firmware header check (R526 items 1 and 2). -/
structure HdrVerdict where
  sigOk    : Bool        -- KEY_ID is not revoked and SIGNATURE verifies
  unwrapOk : Bool        -- WRAPPED_KEY unwraps
  deriving DecidableEq, Repr

/-- What a start finds at an SRAM macro of a swath or, for none, of the host port or the steward (R370): its size, the rows
its fuse map names, and the failed rows its BIST finds beyond those already repaired. -/
structure MacroBist where
  sw     : Option (Fin 16)
  id     : Nat
  big    : Bool               -- 64 KiB or more
  fused  : Nat
  failed : Nat
  deriving DecidableEq, Repr

/-- What the world gives a start (R410, R515): the supply found, the class assigned, the power-good
results of tests and images, and the draws of a first start. -/
structure StartIn where
  v12Good    : Bool                 -- V12_IN in range for 100 ms
  pdContract : Bool                 -- port C holds an 802.3bt power contract
  pdClass    : Nat                  -- class assigned
  offSeconds : Nat                  -- calendar seconds without power, by the calendar's own reading
  calKept    : Bool                 -- the calendar domain kept counting
  bist       : List MacroBist       -- SRAM macros with repaired or failed rows (R370)
  flushBad   : List Nat             -- swaths whose flush seal fails its CRC-32C (R207)
  flushLines : List (Nat × Nat × Nat)   -- swath, buffer unit, quarter: an unreadable line of the flush area (R375)
  unwrapBad  : List (Nat × Bool)    -- key spaces and copies, true for the second, of wrapped keys whose bytes have changed (R318)
  badSegs    : List (Nat × Nat)     -- swath, segment without a readable checkpoint (R267)
  fwCheckA   : Bool                 -- the header and payload of slot A pass (step 2)
  fwCheckB   : Bool                 -- those of slot B pass
  setSigA    : Bool                 -- settings slot A verifies
  setSigB    : Bool                 -- settings slot B verifies
  markBad    : List Nat             -- swaths none of whose mark copies is readable (R375)
  cut        : List (Nat × Nat)     -- swath, superblock whose program a flush abandoned (R308)
  badRecs    : List (Nat × Nat × Bool)  -- swath, RSEQ of a ring record whose CRC fails; true: its line is unreadable (R266, R375)
  packLines  : List (Nat × Nat × Nat)   -- swath, packing page, 64-byte line that is unreadable (R375)
  badShipped : List (Nat × Nat × Nat)   -- swath, plane, block that is bad when shipped; read at a first start (R280)
  newKeys    : List (BitVec 256)    -- data keys drawn for identifiers met first (R315)
  newSecret  : BitVec 128           -- hash secret of a first start (R244)
  deriving DecidableEq, Repr

/-- The random draws of a crypto-erase (R336, R337). -/
structure EraseDraw where
  kekSalt : BitVec 256
  secret  : BitVec 128
  keys    : List (Nat × BitVec 256)
  deriving DecidableEq, Repr

/-- A condition of Table 12-5: codes 0 to 3, of a supply or a rail, and a reading of a sensor, in 0.1 °C. -/
inductive PfCause where
  | supply (code : Fin 4)
  | hot (sensor : Fin 50) (temp : Int)
  deriving DecidableEq, Repr

/-- What a chain receiver finds (R460): 64 consecutive valid symbols after a comma, code or disparity errors within 1,024
symbols, or 1 µs of an input below 100 mV. -/
inductive ChainRx where
  | comma
  | errors (count : Nat)
  | quiet
  deriving DecidableEq, Repr

/-- THE COMMANDS: one constructor per row of the table, in the table's order. -/
inductive Instr where
  | frameReceive (p : PortId) (f : Frame)
  | pauseRepeatTimer (p : PortId)
  | pauseWatchdogFire (p : PortId) (cls : Option (Fin 8)) (ms : Nat)
  | pauseHoldoffEnd (p : PortId)
  | ownPauseWatchdog (p : PortId) (ms : Nat)
  | frameTransmit (p : PortId) (left : List Nat)
  | gateHeldDrop (p : PortId) (cls : Fin 8)
  | txUnderrun (p : PortId) (left : List Nat)
  | ctLevelDecay (p : PortId) (cls : Fin 8)
  | gclSwapReq (p : PortId)
  | gclSwap (p : PortId)
  | gclEntryExpire (p : PortId) (cycleEnd : Bool)
  | gclDataAccess (p : PortId) (path : ReqPath) (w : Option Word)
  | rateStepDown (p : PortId) (load : StepLoad)
  | rateStepUp (p : PortId) (load : StepLoad)
  | linkChange (p : PortId) (mode : BitVec 3) (lowAdv eeeAdv : Bool)
  | eeeLpiEnter (p : PortId)
  | portEnableWrite (p : PortId) (en : Bool)
  | loopSet (p : PortId) (mode : BitVec 2)
  | loopTimeout (p : PortId)
  | lbtGo (p : PortId) (received bad : Nat)
  | fcFill
  | fcFlush
  | fragmentCommit (at_ : CommitAt)
  | reorderTimeout (sid seq : Nat)
  | reassemblyTimeout (sid seq : Nat)
  | ackDelayTimer (sid : Nat)
  | partAckTimer (sid seq : Nat)
  | ack (sid : Nat)
  | rtoTimer (sid seq : Nat) (frag : FragAt)
  | underrunResend (sid seq : Nat) (frag : FragAt)
  | idleTimeout (sid : Nat)
  | sessionOpenPhase1 (sid : Nat) (draw : OpenDraw)
  | sessionOpenPhase3 (sid : Nat) (v : ChainVerdict)
  | sessionOpenTimeout (sid : Nat)
  | sessionClose (cid : Nat)
  | lingerTimeout (sid : Nat)
  | rekey (cid : Nat)
  | rekeyAnswer (cid : Nat)
  | queueReset (cid : Nat)
  | abortMarkerArrive (sw : Fin 16) (cid : Nat)
  | queueResetAnswer (cid : Nat)
  | get (cid : Nat)
  | getRange (cid : Nat)
  | head (cid : Nat)
  | put (sw : Fin 16) (cid : Nat) (al : Alloc)
  | putStream (sw : Fin 16) (cid : Nat) (al : Alloc)
  | streamTimeout (sid i : Nat)
  | writeRange (sw : Fin 16) (cid : Nat) (al : Alloc) (mergeOk : Bool)
  | append (sw : Fin 16) (cid : Nat) (al : Alloc) (mergeOk : Bool)
  | casPut (sw : Fin 16) (cid : Nat) (al : Alloc)
  | delete (sw : Fin 16) (cid : Nat) (al : Alloc)
  | discardSecure (sw : Fin 16) (cid : Nat) (al : Alloc)
  | secureDiscardOverwrite (sw : Fin 16) (cid : Nat)
  | secureDiscardComplete (cid : Nat)
  | hold (sw : Fin 16) (cid : Nat) (al : Alloc)
  | list (cid : Nat)
  | notifyDone (cid : Nat)
  | regRead (cid : Nat)
  | regWrite (cid : Nat)
  | status (cid : Nat)
  | recordRead (cid : Nat)
  | timeSet (cid : Nat)
  | functionReset (cid : Nat)
  | swathTest (cid : Nat)
  | evacuate (cid : Nat)
  | sanitize (cid : Nat) (draw : EraseDraw)
  | format (cid : Nat) (draw : EraseDraw)
  | progress (cid : Nat)
  | settingsWrite (cid : Nat) (sigOk : Bool)
  | imageBegin (cid : Nat) (v : HdrVerdict) (imageId : BitVec 32)
  | imageData (cid : Nat) (digestOk : Bool)
  | imageStoreComplete (ok : Bool)
  | imageTransferTimeout
  | imageActivate (cid : Nat)
  | attest (cid : Nat) (sig : List Byte)
  | takeOwnership (cid : Nat) (proofOk : Bool)
  | dispatchAdmit
  | waitResTimeout (cid : Nat)
  | patternLaneStart
  | patternResult (lane : Fin 16)
  | hazardArrive (sw : Fin 16)
  | chainEligible (sw : Fin 16) (cid : Nat) (recOk : ChainRead)
  | qprioAge (sw : Fin 16) (cid : Nat)
  | bufferUnitTake (sw : Fin 16) (cid : Nat) (unit : Nat)
  | writeComplete (sw : Fin 16) (cid : Nat) (al : Alloc) (part : Option BeatWrite)
  | rangePieceSwitch (sw : Fin 16) (cid : Nat) (al : Alloc) (mergeOk : Bool)
  | pairReadyReport (sw : Fin 16) (cid : Nat)
  | pairOneCopySwitch (sw : Fin 16) (cid : Nat) (al : Alloc)
  | pairCatchup (sw : Fin 16) (space : Nat) (key : List Byte) (al : Alloc)
  | defClearDelivered
  | powerFail (cause : PfCause)
  | flushComplete (durUs : Nat)
  | swathReady (sw : Fin 16)
  | tcInvalidate (frm : Fin 4096)
  | tcWrite (frm : Fin 4096)
  | tcValidate (frm : Fin 4096)
  | tcShiftUp (frm upTo : Fin 4096)
  | tcShiftDown (frm upTo : Fin 4096)
  | tcShiftMove
  | tcCmdInvalid (op : BitVec 3) (frm upTo : Fin 4096)
  | tcDataAccess (path : ReqPath) (w : Option Word)
  | paDataAccess (path : ReqPath) (w : Option Word)
  | paSwapRequest
  | paSwapTakeEffect
  | paTestGo
  | paTestDone
  | paTkeyWrite (w : Word)
  | paTestLenWrite (len : BitVec 10)
  | holdInputChange (inp : HoldIn) (active : Bool)
  | slotCopyPass
  | slotCutover (al : List Alloc)
  | evacuationEnd
  | ckptPassStart (sw : Fin 16)
  | ckptForce (sw : Fin 16)
  | ckptPassEnd (pass : PassEnd)
  | rebuildEnd (sw : Fin 16)
  | extentJoin (sw : Fin 16) (space : Nat) (key : List Byte) (al : Alloc) (badSheaf : Option Nat)
  | overflowRefill (sw : Fin 16) (group : Nat)
  | vcFlush (sw : Fin 16)
  | codewordRead (sw : Fin 16) (unit : Nat) (res : Decoded) (host : Bool) (die : DieAt) (busy : Nat)
  | programComplete (sw : Fin 16) (by_ : Mover) (sb : Nat) (die : ProgAt) (moves : List UnitMove)
  | programFail (sw : Fin 16) (by_ : Mover) (sb : Nat) (die : Fin 32) (plane : Fin 4) (dest : Nat) (moves : List UnitMove)
  | eraseComplete (sw : Fin 16) (sb : Nat) (die : DieAt)
  | eraseFail (sw : Fin 16) (sb : Nat) (die : Fin 32) (plane : Fin 4)
  | opResume (sw : Fin 16) (die : Fin 32)
  | drainStart (sw : Fin 16)
  | packPageClose (sw : Fin 16) (page : Nat)
  | tedTrigger (sw : Fin 16) (byAge : Bool)
  | sheafOpen (sw : Fin 16) (cid : Nat) (ok : Bool)
  | katGo (sw : Fin 16) (pass : Bool)
  | patrolTick (sw : Fin 16) (granule : Nat) (beat : Fin 16) (at_ : DramAt) (bytes : List Byte) (passEnd : Bool)   -- bytes: bits that have flipped
  | unmarkWrite (sw : Fin 16)
  | clClear (sw : Fin 16)
  | coreTrap (core : CoreFault)
  | dmaUeHalt (sw : Fin 16) (ch : Fin 8) (granule : Nat) (beat : Fin 16) (at_ : DramAt)
  | dmaRestart (sw : Fin 16) (mask : BitVec 8)
  | pageRetire (sw : Fin 16) (page : Nat)
  | sramUe (k : SramKind)
  | tcamSweep (entry : Fin 4096) (find : SweepFind)
  | startGapMove (sw : Fin 16) (gap : GapMove)
  | windowViolation (master : Fin 148) (addr : BitVec 40) (right : Fin 3) (pc : BitVec 32)
  | freezeAutoReset (f : Fn)
  | irqSourceAssert (target : Fin 18) (src : Nat)
  | irqClaim (target : Fin 18) (m : IrqMaster) (masked : Bool)
  | irqDone (target : Fin 18) (id : BitVec 10) (m : IrqMaster)
  | ntfSwSet (k : Fin 2) (mask : Word)
  | ntfSwClr (k : Fin 2) (mask : Word)
  | notifyClaim
  | notifyTimeout (src : Nat)
  | functionResetComplete (f : Fn) (us : Nat) (lost : ReplayLoss)
  | mailboxTimeout (sw : Fin 16)
  | powerGoodStart (i : StartIn)
  | liveMoveMeadow
  | lldpSendTimer
  | lldpAllocation (mw : Nat)
  | lldpEcho
  | powerLoopTick (drawMw : Nat)
  | droopTrip (isl : Fin 66)
  | droopRecover (isl : Fin 66)
  | droopMsReport
  | thermalWarning (sensor : Fin 50) (deciC : Int)
  | thermalLimit (sensor : Fin 50) (deciC : Int)
  | thermalLevelTick (reading : List (Nat × Int))
  | thermalRestart (i : StartIn) (reading : List (Nat × Int))
  | bankCharged
  | bankTest (mj : Nat)
  | v12Overvoltage
  | rstInActivate
  | rstInRelease (i : StartIn)
  | inputStuck (inp : Discrete) (i : StartIn)
  | inputSuspendEnd (inp : Discrete)
  | chainLockChange (up : Bool) (rx : ChainRx)
  | chainPresenceChange (up : Bool) (present : Bool)
  | ledActTimer
  | calJournalSave
  | cellLowDetect (days : Nat)
  | trustUncertExceeded
  | ptpAnnounce (p : PortId) (an : Announce)
  | ptpSync (p : PortId) (offsetNs : Int)
  | slewEnd
  | ptpSyncLoss
  | announceTimeout
  | leapSecond
  | eventIntake
  | measureSample (mw : Nat) (ctrl nand : Int) (pkg : Nat)
  | intervalClose
  | closeNow
  | shutdown
  | shutdownComplete
  | confirm
  | trialConfirmTimer
  | trialWatchdog (i : StartIn)
  | settingsGuardTimeout
  | migrationComplete
  | activationWhen
  | imgHdr (f : ChainFrame) (v : HdrVerdict)
  | imgData (f : ChainFrame) (digestOk : Bool)
  | imgEnd (f : ChainFrame)
  | refuse (f : ChainFrame)
  | resend (f : ChainFrame)
  | activate (f : ChainFrame)
  | inventory (f : ChainFrame) (down : Bool)
  | inventoryBeaconTimer
  | inventoryStale (pos : Nat)
  | adminJobEnd (job target : Nat)
  | swathTestEnd (sw : Fin 16) (faults : Nat) (addr : BitVec 32) (dev kind : BitVec 4)
  | regWritePlain (path : ReqPath) (addr : BitVec 24) (mask value : Word)
  | loLatchRead (path : ReqPath) (addr : BitVec 24)
  | rcClearRead (path : ReqPath) (addr : BitVec 24)
  | windowSelectWrite (path : ReqPath) (addr : BitVec 24) (value : Word)
  | pauseQuantaExpire (p : PortId) (cls : Option (Fin 8))
  | ownPauseHoldoffEnd (p : PortId)
  | thermalBelowLimit (deciC : Int)
  | cellReserveRecover (days : Nat)
  | holdApplyComplete (inp : HoldIn)
  deriving DecidableEq, Repr

end Sys2Proof
end

