-- ==== Sys2Proof/Decode.lean ====
section
/-!
DEFINITION. The hardware is a block that takes commands: no row of its table of operations has bits,
so no word spells a command, and there is nothing to encode.
-/
namespace Sys2Proof

/-- The command a word spells by the table's bits: none, because no row gives bits. -/
def decodeTableWord (_nbits _w : Nat) : Option Instr := none

end Sys2Proof
end

