-- ==== Sys2Proof/Config.lean ====
section
/-!
DEFINITION. What the model leaves uninterpreted: the outputs of cryptographic algorithms the spec
names but whose values no rule of the drive depends on, and values the spec does not state. Each is
an opaque constant: nothing can be proved of its value.
-/
namespace Sys2Proof

/-- Byte k of AES-256-GCM of a plaintext under a key, a 12-byte nonce and associated data. The first
bytes are the ciphertext, the 16 after them the tag. -/
opaque Config.gcmByte (key nonce aad plain : List Byte) (k : Nat) : Byte

/-- Byte k of the x-coordinate of P-384 ECDH of a private and a public key. -/
opaque Config.ecdhByte (priv pub : List Byte) (k : Nat) : Byte

/-- Byte k of SHA-384 of a message. -/
opaque Config.sha384Byte (message : List Byte) (k : Nat) : Byte

/-- Byte k of AES-256 key wrap (NIST SP 800-38F, KW) of a plaintext. -/
opaque Config.wrapByte (kek plain : List Byte) (k : Nat) : Byte

/-- Byte k of the 256-bit device secret in fuses, which no command returns. -/
opaque Config.deviceSecret (k : Nat) : Byte

/-- PROGRESS.REMAIN_S: the drive's estimate of the seconds left (Table 4-14), which no rule states. -/
opaque Config.remainS (job target permille elapsed : Nat) : Nat

/-- Words W0 to W2 of access window `entry` (master * 16 + window) as the firmware bundle of a payload
gives it (R379): the bundle is encrypted, and the spec does not give its tables. -/
opaque Config.windowWord (payload : List Byte) (entry k : Nat) : Word

/-- SW_JM_WEAR.MAX of a swath after so many line writes: where the start-gap's keyed permutation (R374)
puts each line is not stated. -/
opaque Config.jmWearMax (swath total : Nat) : Nat

/-- The steward's own journal memory: spare lines left, average and greatest line wear, which no rule
of the drive changes. -/
opaque Config.stewardJournal (k : Nat) : Nat

/-- Steward mailbox word k of a swath at a moment: its contents are the firmware's (Table 18-4). -/
opaque Config.mailboxWord (swath k now : Nat) : Word

/-- Bit i of the four that a key sets in a 64 KiB key filter: which bits of H give them is not stated. -/
opaque Config.filterBit (space : Nat) (hash : BitVec 64) (i : Nat) : BitVec 19

/-- A value the spec leaves open; k counts such values (`Dev.freeNo`). -/
opaque Config.freeWord (k : Nat) : Word

/-- SHA-384 of a message, 48 bytes. -/
def sha384 (message : List Byte) : List Byte := (List.range 48).map (Config.sha384Byte message)

end Sys2Proof
end

