-- ==== Sys2Proof/Machine/Bits.lean ====
section
/-!
DEFINITION. Helpers every chapter uses: bit fields of registers (R4), network byte order (R5),
sparse tables kept in one canonical form, the checks the spec names by algorithm (CRC-32C of R506,
the ones'-complement sum of R38) and the keyed hash SipHash-2-4 of R243.
-/
namespace Sys2Proof.Machine

/-! ### Sparse tables: keys strictly rising -/

/-- A sparse table from numbers. Its canonical form is `sorted`: keys strictly rising. -/
abbrev Tbl (α : Type) := List (Nat × α)

/-- The entry at a key. -/
def look {α : Type} (k : Nat) : Tbl α → Option α
  | [] => none
  | (i, x) :: t => if i = k then some x else look k t

/-- Write an entry, keeping the keys strictly rising. -/
def put {α : Type} (k : Nat) (x : α) : Tbl α → Tbl α
  | [] => [(k, x)]
  | (i, y) :: t =>
    if i = k then (k, x) :: t else if k < i then (k, x) :: (i, y) :: t else (i, y) :: put k x t

/-- Remove an entry. -/
def del {α : Type} (k : Nat) : Tbl α → Tbl α
  | [] => []
  | (i, y) :: t => if i = k then del k t else (i, y) :: del k t

/-- Every key of the table is above a bound. -/
def keysAbove {α : Type} (b : Nat) : Tbl α → Bool
  | [] => true
  | (i, _) :: t => decide (b < i) && keysAbove i t

/-- The canonical form: keys strictly rising. -/
def sorted {α : Type} : Tbl α → Bool
  | [] => true
  | (i, _) :: t => keysAbove i t

/-- The lowest key from k on that a sorted table does not list. -/
def firstGap {α : Type} : Nat → Tbl α → Nat
  | k, [] => k
  | k, (i, _) :: t => if i < k then firstGap k t else if i = k then firstGap (k + 1) t else k

/-- Change the entry at a key, if there is one. -/
def adjust {α : Type} (k : Nat) (f : α → α) (t : Tbl α) : Tbl α :=
  match look k t with
  | some x => put k (f x) t
  | none => t

/-- Read with a value for absent keys. -/
def lookD {α : Type} (k : Nat) (dflt : α) (t : Tbl α) : α := (look k t).getD dflt

/-- Write, leaving out entries that equal what an absent key reads as. -/
def putD {α : Type} [DecidableEq α] (k : Nat) (dflt x : α) (t : Tbl α) : Tbl α :=
  if x = dflt then del k t else put k x t

/-- A set of numbers, kept in rising order. -/
def insertNat (n : Nat) : List Nat → List Nat
  | [] => [n]
  | i :: t => if i = n then i :: t else if n < i then n :: i :: t else i :: insertNat n t

/-! ### Bit fields (R4) -/

/-- Bits [lo+width-1 : lo] of a register. -/
def bitsOf (w : Word) (lo width : Nat) : Nat := (w.toNat >>> lo) % 2 ^ width

/-- The mask of a field. -/
def fieldMask (lo width : Nat) : Word := BitVec.ofNat 32 ((2 ^ width - 1) <<< lo)

/-- A register with one field replaced. -/
def withBits (w : Word) (lo width v : Nat) : Word :=
  (w &&& ~~~ (fieldMask lo width)) ||| (BitVec.ofNat 32 ((v % 2 ^ width) <<< lo))

/-- Bit k of a number. -/
def bit (n k : Nat) : Bool := n.testBit k

/-- A bit as a number. -/
def b2n (b : Bool) : Nat := if b then 1 else 0

/-- A number with one bit set or cleared. -/
def setBit (n k : Nat) (b : Bool) : Nat :=
  if n.testBit k then (if b then n else n - 2 ^ k) else (if b then n + 2 ^ k else n)

/-- Saturating addition. -/
def satAdd (a b max : Nat) : Nat := if a + b ≤ max then a + b else max

/-- Two's-complement reading of the low bits of a number. -/
def signed (width n : Nat) : Int := (BitVec.ofNat width n).toInt

/-- Two's-complement bits of an integer. -/
def unsignedOf (width : Nat) (i : Int) : Nat := (BitVec.ofInt width i).toNat

/-! ### Network byte order (R5) -/

/-- The low k bytes of a number, most significant first. -/
def be : Nat → Nat → List Byte
  | 0, _ => []
  | k + 1, n => BitVec.ofNat 8 (n / 256 ^ k) :: be k n

/-- The number that bytes spell, most significant first. -/
def ofBe (l : List Byte) : Nat := l.foldl (fun a b => a * 256 + b.toNat) 0

/-- The number that bytes spell, least significant first. -/
def ofLe : List Byte → Nat
  | [] => 0
  | b :: t => b.toNat + 256 * ofLe t

/-- n bytes from an offset. -/
def slice (l : List Byte) (off n : Nat) : List Byte := (l.drop off).take n

/-- The number in n bytes from an offset; bytes past the end read as nothing. -/
def fieldBe (l : List Byte) (off n : Nat) : Nat := ofBe (slice l off n)

/-- n zero bytes. -/
def zeros (n : Nat) : List Byte := List.replicate n 0

/-- A list cut or padded with zero bytes to n bytes. -/
def padTo (n : Nat) (l : List Byte) : List Byte := (l.take n) ++ zeros (n - l.length)

/-- Ceiling division. -/
def ceilDiv (a b : Nat) : Nat := (a + b - 1) / b

/-- Cut a list into pieces of n, with fuel. -/
def chunks {α : Type} (n : Nat) : Nat → List α → List (List α)
  | 0, _ => []
  | f + 1, l => if l.isEmpty then [] else l.take n :: chunks n f (l.drop n)

/-- Replace bytes from an offset on, extending the list where needed. -/
def overlay (old : List Byte) (off : Nat) (new : List Byte) : List Byte :=
  padTo off old ++ new ++ old.drop (off + new.length)

/-! ### CRC-32C (R506: initial 0xFFFF_FFFF, reflected, final complement) -/

/-- One bit step of the reflected Castagnoli polynomial. -/
def crcBit (c : Word) : Word :=
  if c.getLsbD 0 then (c >>> 1) ^^^ 0x82F63B78#32 else c >>> 1

/-- Eight bit steps. -/
def crcByte (c : Word) (b : Byte) : Word :=
  let c0 := c ^^^ b.zeroExtend 32
  crcBit (crcBit (crcBit (crcBit (crcBit (crcBit (crcBit (crcBit c0)))))))

/-- CRC-32C of a byte string. -/
def crc32c (l : List Byte) : Word := ~~~ (l.foldl crcByte 0xFFFFFFFF#32)

/-! ### The ones'-complement sum and the balance word (R38) -/

/-- Ones'-complement addition of 16-bit words: the carry out of bit 15 goes back into bit 0. -/
def onesAdd (a b : Nat) : Nat :=
  let s := a + b
  if s < 65536 then s else s - 65535

/-- Ones'-complement sum of the 16-bit words of a byte string; an odd last byte is the high byte. -/
def onesSum : List Byte → Nat
  | [] => 0
  | [a] => a.toNat * 256
  | a :: b :: t => onesAdd (a.toNat * 256 + b.toNat) (onesSum t)

/-- The balance word: the complement of the sum of everything before it. -/
def balanceWord (l : List Byte) : Nat := 65535 - onesSum l

/-! ### SipHash-2-4 (R243) -/

/-- The four words of SipHash state. -/
structure Sip where
  v0 : DWord
  v1 : DWord
  v2 : DWord
  v3 : DWord
  deriving DecidableEq, Repr

/-- One SipRound. -/
def Sip.round (s : Sip) : Sip :=
  let a0 := s.v0 + s.v1
  let a1 := (s.v1.rotateLeft 13) ^^^ a0
  let a0 := a0.rotateLeft 32
  let a2 := s.v2 + s.v3
  let a3 := (s.v3.rotateLeft 16) ^^^ a2
  let b0 := a0 + a3
  let b3 := (a3.rotateLeft 21) ^^^ b0
  let b2 := a2 + a1
  let b1 := (a1.rotateLeft 17) ^^^ b2
  ⟨b0, b1, b2.rotateLeft 32, b3⟩

/-- Absorb one message word: two rounds. -/
def Sip.absorb (s : Sip) (m : DWord) : Sip :=
  let t := (Sip.mk s.v0 s.v1 s.v2 (s.v3 ^^^ m)).round.round
  ⟨t.v0 ^^^ m, t.v1, t.v2, t.v3⟩

/-- Absorb a message, eight bytes little-endian at a time; the last word carries the length. -/
def Sip.message (len : Nat) : Nat → List Byte → Sip → Sip
  | 0, _, s => s
  | f + 1, l, s =>
    if l.length < 8 then s.absorb (BitVec.ofNat 64 (ofLe l + (len % 256) * 2 ^ 56))
    else Sip.message len f (l.drop 8) (s.absorb (BitVec.ofNat 64 (ofLe (l.take 8))))

/-- SipHash-2-4 of a byte string under a 128-bit key whose bytes count from the least significant. -/
def sipHash (key : BitVec 128) (l : List Byte) : DWord :=
  let k0 : DWord := key.setWidth 64
  let k1 : DWord := (key >>> 64).setWidth 64
  let s : Sip := ⟨k0 ^^^ 0x736F6D6570736575#64, k1 ^^^ 0x646F72616E646F6D#64,
    k0 ^^^ 0x6C7967656E657261#64, k1 ^^^ 0x7465646279746573#64⟩
  let t := Sip.message l.length (l.length / 8 + 1) l s
  let u := (Sip.mk t.v0 t.v1 (t.v2 ^^^ 0xFF#64) t.v3).round.round.round.round
  u.v0 ^^^ u.v1 ^^^ u.v2 ^^^ u.v3

end Sys2Proof.Machine
end

