-- ==== Sys2Proof/Machine/State.lean ====
section
/-!
DEFINITION. The drive's state as plain data, chapter by chapter, and the state after reset. Software
registers whose home is the register itself live in `Dev.regs` (the addresses of R595 and R596; an
address not listed reads as its reset value); everything else the spec names has a field below.
-/
namespace Sys2Proof.Machine

/-! ### Host port (chapter "Host port and Ethernet") -/

/-- What a transmitted frame carries. -/
inductive TxItem where
  | skp (sid epoch seq idx : Nat)                    -- a retained fragment of a session
  | ackMsg (sid epoch seq : Nat) (payload : List Byte)   -- a standalone ACK message (R97)
  | refusal2 (status tag space : Nat) (ip : BitVec 128) (udp : BitVec 16)  -- a phase 2 refusal (R109)
  | refusal4 (sid : Nat) (port : BitVec 16) (udp : List Byte)   -- a phase 4 refusal, whole (R108)
  | pauseF (classes : BitVec 8) (quanta : Nat)       -- 802.3 pause (no classes) or PFC
  | arpReply | neighbourAdv | echoReply
  | delayReq | followUp (sec ns : Nat)               -- two-step PTP (R70)
  | lldp (reqMw allocMw : Nat)
  deriving DecidableEq, Repr

/-- What a response takes over from its request's frame (R36, R51, R217): traffic class, tagging,
PCP, the port address named, DSCP and ECN, and where it goes back to. -/
structure Via where
  cls    : Nat
  tagged : Bool
  pcp    : Nat
  dst    : DstIp
  dscp   : Nat
  ecn    : Nat
  peer   : BitVec 128    -- source address of the request; IPv4 in the form ::FFFF:a.b.c.d
  deriving DecidableEq, Repr

/-- One entry of a port's transmit queue. -/
structure TxEnt where
  via  : Via
  size : Nat
  item : TxItem
  deriving DecidableEq, Repr

/-- The IP and UDP headers of a sent packet (R36). Over IPv6 `df`, `ident` and `csum` do not exist and
hold 0; a packet that is no UDP datagram has ports 0. -/
structure IpOut where
  v6      : Bool
  src     : BitVec 128
  dst     : BitVec 128
  dscp    : Nat
  ecn     : Nat
  ttl     : Nat         -- TTL or hop limit
  df      : Bool
  ident   : Nat
  len     : Nat         -- total length of IPv4, payload length of IPv6
  csum    : Nat         -- header checksum of IPv4
  proto   : Nat
  srcPort : Nat
  dstPort : Nat
  deriving DecidableEq, Repr

/-- A frame as it left the connector. `udp` is the UDP payload of an SKP frame. -/
structure WireFrame where
  item   : TxItem
  via    : Via
  vid    : Nat          -- VID of its tag, 0 when it goes untagged (R51)
  ip     : Option IpOut
  csum   : Nat          -- the UDP checksum field written (R38)
  udp    : List Byte
  fcsOk  : Bool
  deriving DecidableEq, Repr

/-- A received SKP frame that has passed Table 2-2 and holds its cells, waiting to commit. -/
structure RxEnt where
  skp    : SkpFrame
  srcIp  : BitVec 128
  srcUdp : BitVec 16
  v6     : Bool
  cells  : Nat           -- cells held outside the class 7 reserve
  cells7 : Nat           -- cells held of the reserve
  via    : Via
  act    : Nat           -- ACTION of the winning masked-match entry (Table 6-2)
  keyNo  : Option Nat    -- place of its key in the order of first bytes (R226)
  deriving DecidableEq, Repr

/-- A port. Its registers, counters, LINK, RATE, PAUSED and PFC_PAUSED live in `Dev.regs`. -/
structure PortSt where
  rxq       : List RxEnt
  txq       : List TxEnt
  octRx     : Nat               -- octets carried below one 64-byte unit (R78)
  octTx     : Nat
  sentGood  : Tbl Nat           -- class: frames sent without underrun since the level changed (R61)
  ownPause  : Bool              -- the drive's own pause is asserted (R43)
  ownPause7 : Bool              -- PFC pause of class 7
  ownHold   : Bool              -- hold-off of the drive's own pause (R48)
  gclOper   : Tbl Word          -- operational gate bank, word address to word
  gclAdmin  : Tbl Word
  gclLen    : Nat               -- length and cycle of the operational list
  gclCycle  : Nat
  gclIdx    : Nat               -- entry running
  lowAdv    : Bool              -- the partner advertised the lower rate
  eeeAdv    : Bool              -- the partner advertised EEE
  stepped   : Bool              -- running at the stepped-down rate
  stepWait  : Option Bool       -- a step that waits for the other fabric port's (R64); true: down
  icmp      : Nat               -- echo requests passed to the steward this second
  rxStamp   : Option (Nat × Nat)   -- timestamp of the last PTP event message received (R68)
  txStamp   : Option (Nat × Nat)
  last      : Option WireFrame  -- the frame most recently put on the wire
  deriving DecidableEq, Repr

/-! ### Session engine (chapter "Sessions and the key protocol") -/

/-- Context states of Table 3-7; a session without a context is FREE. -/
inductive CtxSt where
  | opening | opened | frozen | closing
  deriving DecidableEq, Repr

/-- The receive-pool cells one frame of a message holds: the payload range it carries, its cells outside
the class 7 reserve and of the reserve (R41). -/
structure CellHold where
  off : Nat
  len : Nat
  c   : Nat
  c7  : Nat
  deriving DecidableEq, Repr

/-- A request message while its fragments come in (Table 3-6: RECEIVING, HELD, ADMITTED). -/
structure InMsg where
  seq      : Nat
  hdr      : SkpHdr                          -- header of the first fragment that came
  frags    : List (Nat × Nat × List Byte)    -- fragment index, offset, bytes, as committed
  frag0    : Bool
  done     : Bool                            -- every fragment has committed
  oneFrame : Bool
  t0       : Nat                             -- PTP time of the commit of fragment 0, ns
  cid      : Option Nat                      -- the command it became
  held     : List CellHold                   -- receive-pool cells still held
  via      : Via
  credit   : Bool                            -- took a credit when fragment 0 committed (R103)
  flaw     : Nat                             -- breaches that do not freeze, by bit (Table 3-9)
  keyNo    : Option Nat                      -- place of its key among those of R226
  deriving DecidableEq, Repr

/-- A fragment the drive sends: WAITING while `sent` is 0, SENT afterwards (Table 3-6). -/
structure OutFrag where
  seq      : Nat
  idx      : Nat
  count    : Nat
  msgLen   : Nat
  off      : Nat
  payload  : List Byte
  tag      : Nat
  op       : Nat
  status   : Nat
  space    : Nat
  more     : Bool
  deferred : Bool
  epoch    : Nat
  via      : Via
  reqSeq   : Option Nat      -- the request it answers
  cid      : Option Nat      -- the command it answers
  last     : Bool            -- last fragment of the last response message
  need     : Nat             -- sheaves that must be open before it may start (R331)
  swath    : Option Nat      -- retained in this swath's retention area (R98)
  about    : Option (Nat × DWord)   -- key space and hash of the value it carries (R312)
  sent     : Nat             -- times sent
  good     : Bool            -- has left whole, with a good FCS
  cut      : Bool            -- its last sending ended with an inverted FCS (R60)
  ackAt    : Nat             -- ACK field as first sent (R96)
  rekeyAt  : Option Bool     -- REKEY_DUE of its message, fixed when its first fragment leaves (R86, R96)
  tries    : Nat             -- resends since resending last started at RTO_US (R100)
  wire     : List Byte       -- UDP payload as first sent, the same at every resend (R96)
  cred     : Bool            -- a refusal whose request still holds a credit (R103)
  dataAt   : Option Nat      -- byte of the value with which its data begins, of a GET or GET_RANGE
  deriving DecidableEq, Repr

/-- An open PUT_STREAM (R152). -/
structure Stream where
  space  : Nat
  key    : List Byte
  sent   : Nat              -- bytes sent so far
  whole  : Nat              -- AUX
  stamp  : Nat
  seq    : Nat              -- number of the last part
  data   : List Byte
  ver    : Nat              -- admission number of the first part
  owners : List (Fin 16)
  chargeL : Nat
  chargeP : Nat
  keyHeld : List (Fin 16)
  flows  : List (Fin 16)    -- swaths at which the value streams (R188)
  parts  : List Nat         -- commands of its parts in flight
  seals  : List (Fin 16 × Nat)   -- COUNT value of its sheaves at each swath
  deriving DecidableEq, Repr

/-- The keys and IVs of one epoch, in both directions (R111). -/
structure KeySet where
  kH2d  : List Byte
  ivH2d : List Byte
  kD2h  : List Byte
  ivD2h : List Byte
  deriving DecidableEq, Repr

/-- What a session keeps of the epoch before, while the REKEY answer is retained (R116): its keys, the ACK
its answer carries, its REKEY_DUE and the number of the REKEY. -/
structure PrevEpoch where
  keys  : KeySet
  seq   : Nat
  rxAck : Nat
  due   : Bool
  deriving DecidableEq, Repr

/-- A session context (R105). -/
structure Ctx where
  st       : CtxSt
  port     : PortId
  ip       : BitVec 128
  udp      : BitVec 16
  v6       : Bool
  via      : Via              -- of the host's most recent request (R36, R51)
  isSealed : Bool
  admin    : Bool
  profile  : Nat
  credit   : Nat
  nonce    : List Byte        -- HOST_NONCE of phase 1
  phase1   : List Byte        -- phase 1 payload, for the transcript
  phase2   : List Byte        -- phase 2 payload, for the transcript
  eph      : List Byte        -- the drive's ephemeral private key, until phase 4 (R111)
  open3    : Option InMsg     -- phase 3 while its fragments come in
  p2       : List OutFrag     -- phase 2 answer, resent unchanged (R110)
  p4       : List OutFrag     -- phase 4 answer, once sent
  secret   : List Byte        -- s[e] of the epoch (R111)
  keys     : KeySet           -- keys of the epoch
  openNo   : Nat              -- order of opening (R403)
  rxNext   : Nat              -- next request number to admit (R94)
  rxAck    : Nat              -- RX_ACK of R95
  rxDone   : List Nat         -- numbers received in full above rxAck
  txNext   : Nat              -- next number of the drive's series
  txAcked  : Nat              -- highest drive number acknowledged
  txSent   : Nat              -- highest drive number used
  ackTx    : Nat              -- next number of the drive's ACK series
  ackRx    : Nat              -- highest number seen in the host's ACK series
  epoch    : Nat
  prev     : Option PrevEpoch -- the previous epoch, while its REKEY answer is retained (R116)
  rekeyDue : Bool
  rekeying : Bool             -- REKEY admitted and not answered (R115)
  closeSeen : Bool            -- SESSION_CLOSE admitted (R105)
  msgs     : List InMsg
  out      : List OutFrag
  streams  : List Stream
  overRun  : Nat              -- refusals under R104 in a row
  frozenAt : Option Nat       -- moment of the last SESSION_FROZEN answer (R118)
  paused   : Bool             -- resending stopped under R100
  ackDue   : Bool             -- something was received and nothing sent since (R97)
  acks     : List (Nat × List Byte)   -- ACK messages committed: epoch and payload
  high0    : Nat              -- highest request number of the epoch whose fragment 0 has committed (R123)
  highDone : Nat              -- highest request number whose last response has been sent (R204)
  resetBy  : Option Nat       -- command of the QUEUE_RESET whose markers are out
  deriving DecidableEq, Repr

/-- A SESSION_OPEN message waiting for the session engine. -/
structure OpenMsg where
  port    : PortId
  ip      : BitVec 128
  udp     : BitVec 16
  v6      : Bool
  sid     : Nat
  payload : List Byte
  act     : Nat
  via     : Via
  tag     : Nat
  space   : Nat
  bad     : Bool             -- a field that must be 0 in a request is not (R85)
  deriving DecidableEq, Repr

structure Ses where
  ctx      : Tbl Ctx
  opens    : List OpenMsg      -- phase 1 and phase 3 messages committed, in order
  openWin  : Nat               -- phase 1 messages taken this second (R109)
  openSeq  : Nat               -- sessions opened so far
  deriving DecidableEq, Repr

/-! ### Commands and the dispatcher (chapters 4 and 5) -/

/-- Command states of Table 5-1. -/
inductive CmdSt where
  | inSession      -- a management or session request before its own step runs
  | waitRes | reserved | chained | running | ordered | complete
  deriving DecidableEq, Repr

/-- How a sheaf or record was sealed: the data key, and what its nonce and associated data held (Tables 9-1 and
9-2). Sheaves end where the value ended then, at `endAt`. -/
structure SealId where
  key   : BitVec 256
  by_   : Nat
  cnt   : Nat
  hash  : DWord
  ver   : Nat
  endAt : Nat
  deriving DecidableEq, Repr

/-- An extent of a value (Table 7-5) with its entry of the seal block (Table 9-4), and how its sheaves were
sealed. -/
structure Extent where
  loc     : Nat          -- in 512-byte units of the swath's logical space
  skip    : Nat          -- slots of the run at LOC before the first sheaf of this extent
  first   : Nat          -- FIRST_SHEAF
  sheaves : Nat
  sealBy  : Nat          -- SWATH of the nonce
  cnt     : Nat          -- COUNT of the nonce
  sealVer : Nat          -- SEAL_VERSION
  made    : SealId       -- how the stored sheaves were sealed
  deriving DecidableEq, Repr

/-- What a read pins at its snapshot (R182). -/
structure Snap where
  version : Nat
  length  : Nat
  value   : List Byte
  held    : Bool
  paired  : Bool
  oneCopy : Bool
  written : Nat
  retain  : Nat
  swath   : Fin 16
  lost    : List Nat           -- sheaves in LOST units
  recLoc  : Nat                -- LOC of the key record
  extents : List Extent        -- where the value lies
  found    : Bool              -- the key exists
  ahead    : Bool              -- taken from a copy with AHEAD at 1
  recBad   : Bool              -- its record has failed its tag
  pins     : List Nat          -- superblocks its units lay in at the snapshot
  tried    : Option (Fin 16 × Nat)   -- the copy that failed last, and at which sheaf (R333)
  recHit   : Bool              -- its record lay in the value cache (R260)
  deriving DecidableEq, Repr

/-- How a key's pattern result stands (R226 to R231). -/
structure KeyRule where
  retainS : Nat        -- retention in seconds, 0 for none
  prio    : Nat        -- QPRIO
  mirror  : Bool
  holdSel : Nat        -- HOLD_SEL of the winning rule
  holdMin : Nat
  rule    : Nat        -- winning rule, 0x3FF when none
  deriving DecidableEq, Repr

/-- A request from its fragment 0 on. -/
structure Cmd where
  sid      : Nat
  seq      : Nat
  tag      : Nat
  op       : Nat
  space    : Nat
  payload  : List Byte          -- payload bytes received, at their offsets
  gotAll   : Bool               -- every fragment has committed
  msgLen   : Nat
  credit   : Bool               -- holds a credit
  port     : PortId
  via      : Via
  oneFrame : Bool
  keyNo    : Option Nat         -- place of its key among those of R226
  key      : List Byte
  hash     : DWord
  rule     : Option KeyRule
  st       : CmdSt
  failed   : Bool               -- a read whose response has been ended by a failure (R145, R332)
  owners   : List (Fin 16)
  arrived  : List (Fin 16)      -- owners at whose hazard table it has arrived
  eligible : List (Fin 16)
  passed   : List (Fin 16)      -- owners at which its order point has passed
  ready    : List (Fin 16)      -- paired: swaths that have reported ready (R192)
  ordered  : Bool               -- paired: the switch order is out
  oneCopy  : Bool
  hasTag   : Bool
  slotsOn  : List (Fin 16)
  ver      : Nat                -- admission number, 0 for none
  chargeL  : Nat
  chargeP  : Nat
  keyHeld  : List (Fin 16)
  chargedOn : List (Fin 16)     -- owners still holding the reservations
  invNo    : Nat                -- invalidation counter taken by a GET that missed (R75)
  held     : List CellHold      -- receive-pool cells its data still holds (R41)
  units    : List (Fin 16 × Nat)   -- buffer units taken
  snap     : Option Snap
  opened   : Nat                -- sheaves opened so far
  pieces   : Tbl Nat            -- pieces of a range write applied, by swath (R190)
  base     : Tbl (Nat × Nat)    -- length and physical charge of the value before the first piece
  taken    : Tbl Nat            -- buffer units taken so far, by swath
  flows    : List (Fin 16)      -- swaths at which the write streams (R188)
  result   : List Byte          -- key result of the first copy that passed its order point
  respSeqs : List Nat           -- numbers of its response messages
  started  : Bool               -- first response message generated
  answered : Bool               -- last response message generated
  abort    : Bool
  t0       : Nat                -- PTP time of the commit of fragment 0, ns
  admStamp : Nat                -- calendar stamp and hold clock at its admission (R232, R611)
  admClock : Nat
  seals    : List (Fin 16 × Nat)   -- COUNT value taken at each swath (R325, R327)
  age      : Nat                -- waiting classes passed over (R234)
  markers  : List (Fin 16)      -- QUEUE_RESET: swaths whose abort marker is out
  aborted  : Nat                -- QUEUE_RESET: requests aborted
  highDone : Nat                -- QUEUE_RESET: highest request completed
  target   : Nat                -- QUEUE_RESET: session named
  resume   : Nat                -- QUEUE_RESET: RESUME_SEQ
  regAt    : Nat                -- REG_READ, REG_WRITE: registers read or entries applied so far (R407)
  regVals  : List Byte          -- REG_READ: values read so far
  deriving DecidableEq, Repr

/-- A front-cache entry: the fields of its header cell (R71). -/
structure FcEnt where
  space   : Nat
  hash    : DWord
  key     : List Byte
  version : Nat
  value   : List Byte
  kflags  : Nat
  written : Nat
  retain  : Nat
  used    : Bool               -- reference bit of the clock algorithm
  deriving DecidableEq, Repr

/-- A deferred error (R195, R199). -/
structure DefEnt where
  tag       : Nat
  status    : Nat
  seq       : Nat
  hash      : DWord
  space     : Nat
  good      : Nat
  sid       : Nat
  delivered : Bool
  orphan    : Bool               -- its session has closed (R198)
  order     : Nat                -- age
  deriving DecidableEq, Repr

/-- A placement slot (Table 7-1). -/
structure Slot where
  owner   : Fin 16
  partner : Fin 16
  home    : Fin 16
  st      : Nat                  -- STATE of Table 7-2
  copied  : Bool                 -- the copy pass of the running job has ended
  part    : Bool                 -- PARTIAL before the move it is in: paired keys alone move (R276)
  moved   : List (Nat × List Byte)   -- keys changed since the copy pass began
  deriving DecidableEq, Repr

structure Disp where
  cmds     : Tbl Cmd
  nextCid  : Nat
  wait     : List Nat            -- commands in the order they left the session engine (R175)
  inbox    : List Nat            -- management and session requests, in order
  inbound  : List (Fin 16 × Nat) -- hedgerow: commands passed to swaths, in order
  admNum   : Nat                 -- next admission number (R137)
  tags     : Nat                 -- tags held
  slots    : Tbl Nat             -- queue slots held, by swath
  lfree    : Tbl Nat
  pfree    : Tbl Int           -- PFREE but for X of R282
  kfree    : Tbl Nat
  inv      : Nat                 -- invalidation counter (R75)
  invTab   : Tbl Nat
  fc       : List FcEnt
  fcBlock  : Bool                -- between the two moments of R76 no fill goes in
  fills    : List (FcEnt × Nat)  -- fills offered: the entry and the GET's invalidation number (R75)
  defLog   : Tbl DefEnt
  defNo    : Nat
  defDue   : Bool                -- entries made at power loss whose interrupt is still due (R200, R209)
  secret   : BitVec 128          -- hash secret (R243)
  plc      : Tbl Slot
  deriving DecidableEq, Repr

/-! ### Policy matcher (chapter "Policy matcher") -/

/-- A masked-match entry (Table 6-11). An entry not listed holds zeros and is invalid. -/
structure TcEnt where
  value  : BitVec 320
  mask   : BitVec 320
  prio   : Nat
  valid  : Bool
  action : Word
  hits   : Word
  deriving DecidableEq, Repr

/-- A shift in progress (R222): the next source entry and how many moves remain. -/
structure Shift where
  up   : Bool
  frm  : Nat
  upTo   : Nat
  src  : Nat
  left : Nat
  deriving DecidableEq, Repr

/-- A lane's outcome. -/
structure LaneOut where
  bad   : Bool
  rule  : Option Nat
  multi : Bool
  final : Nat
  deriving DecidableEq, Repr

/-- A key of R226 from the arrival of its first byte until its result is taken; `done` is the result. -/
structure KeyRun where
  space : Nat
  key   : List Byte
  done  : Option KeyRule
  deriving DecidableEq, Repr

structure Pol where
  tc      : Tbl TcEnt
  stage   : Tbl Word            -- the 22 staging words
  shift   : Option Shift
  bankA   : Tbl Word            -- pattern bank A, word address to word; absent words hold 0
  bankB   : Tbl Word
  keys    : Tbl KeyRun          -- keys by the order of their first bytes' arrival (R226)
  keyNo   : Nat                 -- number of the next key
  lanes   : Tbl Nat             -- lane: number of the key that runs in it
  tkey    : List Byte           -- the test key bytes
  tkeyAt  : Nat                 -- the POL_PA_TKEY pointer, which a LEN write resets
  testing : Option LaneOut      -- the test under way: what its lane will give (R241)
  sweep   : Nat                 -- next entry of the TCAM sweep (R369)
  deriving DecidableEq, Repr

/-! ### Interrupts, notification, freezing, resets (chapter 11) -/

/-- A source's own state; PRIO and TARGET live in its register (Table 11-11). -/
structure IrqSrc where
  event   : Bool     -- event bit of a source of kind E (R391)
  level   : Bool     -- condition of a source of kind C that has no register of its own
  latch   : Bool
  service : Bool
  by_     : Nat      -- the target that claimed it
  events  : Nat
  storm   : Bool
  claims  : Nat      -- claims in this millisecond (R398)
  deriving DecidableEq, Repr

/-- A NOTIFY awaiting completion (R402). -/
structure NtfOut where
  src : Nat
  sid : Nat
  deriving DecidableEq, Repr

/-- What GLB_RST_INFO and GLB_RST_TIME hold for a function. -/
structure RstInfo where
  count : Nat
  cause : Nat
  us    : Nat
  deriving DecidableEq, Repr

structure Irq where
  src    : Tbl IrqSrc          -- shared s at s; private p of target t at 1024 + 64 t + p
  out    : List NtfOut
  rst    : Tbl RstInfo
  steps  : Tbl (List Nat)      -- swath: moments of the steward's resets of it (R589)
  claimRead : Tbl Word         -- what the last read of each target's claim register returned (R393)
  asker  : Tbl Nat             -- function under reset: command that waits for its end
  due    : List (Fn × Nat)     -- resets that wait until their own answer has been sent (R168)
  deriving DecidableEq, Repr

/-! ### Calendar and recorder (chapter 14) -/

/-- An event on its way to the recorder (R501). -/
structure Event where
  code   : Nat
  unit   : Nat
  sev    : Nat
  value  : Nat
  detail : Nat
  stamp  : Nat         -- when it arose
  untr   : Bool        -- trust was UNTRUSTED then
  deriving DecidableEq, Repr

/-- An accumulator (R501). -/
structure Accum where
  code   : Nat
  unit   : Nat
  sev    : Nat
  first  : Nat
  last   : Nat
  count  : Nat
  min    : Nat
  max    : Nat
  hist   : List Nat
  detail : Nat
  untr   : Bool
  sat    : Bool
  deriving DecidableEq, Repr

/-- An event record (Table 14-4); its CRC is computed when it is read. -/
structure Rec where
  index  : Nat
  code   : Nat
  unit   : Nat
  sev    : Nat
  kind   : Nat
  first  : Nat
  last   : Nat
  count  : Nat
  min    : Nat
  max    : Nat
  repeats : Nat
  flags  : Nat
  hist   : List Nat
  detail : Nat
  bad    : Bool        -- both stored copies fail their CRC (R511)
  deriving DecidableEq, Repr

structure Recorder where
  intake   : List Event
  accums   : List Accum
  recs     : List Rec            -- in ascending INDEX
  next     : Nat                 -- INDEX of the next record
  lostPend : Nat                 -- events lost and not yet reported (R502)
  overThis : Bool                -- an overwrite has happened in this interval (R508)
  deriving DecidableEq, Repr

/-- A PTP master chosen (R494). -/
structure Master where
  port  : PortId
  gm    : BitVec 64
  utc   : Nat
  deriving DecidableEq, Repr

structure Cal where
  tick     : Nat                 -- the calendar, in 1/1024 s since 1970: the stamp of R138
  uncertUs : Nat                 -- U in microseconds (R488)
  slew     : Nat                 -- ticks still to slew back at 1,000 ppm (R497)
  slewAcc  : Nat
  master   : Option Master
  inRange  : Nat                 -- consecutive Syncs within 1 microsecond
  leap     : Option (Bool × Nat) -- announced leap second: positive, day it ends (R499)
  leapFrom : BitVec 64           -- the master that announced it
  hold     : Nat                 -- ticks a positive leap second still holds the calendar
  saved    : Nat                 -- reading and uncertainty stored in the steward journal (R486)
  savedU   : Nat
  savedTrust : Nat
  hadMin   : Bool                -- the reserve has fallen below 3 days and not reached 5 since (R607)
  ptpSec   : Nat                 -- PTP time counter
  ptpNs    : Nat
  ptpHalf  : Bool                -- half a nanosecond carried
  offset   : Int                 -- CAL_PTP_OFFSET
  deriving DecidableEq, Repr

/-! ### Swaths (chapters 5, 7 to 10) -/

/-- A key: its index entry (Table 7-4), its key record (Table 7-5) and its value's plaintext. -/
structure KeyEnt where
  space   : Nat
  key     : List Byte
  hash    : DWord
  version : Nat
  value   : List Byte
  written : Nat
  retain  : Nat
  held    : Bool
  paired  : Bool
  ahead   : Bool
  packed  : Bool
  loc     : Nat          -- LOC of the key record
  extents : List Extent
  recSeal : Nat          -- COUNT under which the record is sealed
  recKey  : BitVec 256   -- data key under which it is sealed
  rseq    : Nat
  rule    : Nat          -- winning pattern rule, 0x3FF when none
  alt     : Bool         -- in bucket J2
  ovf     : Option Nat   -- the overflow bucket it lies in (R253)
  ent     : Nat          -- its entry in its bucket, 0 to 7
  recBad  : Bool         -- the record has failed its tag (R335)
  drained : Bool         -- packed, and its excess charge has returned (R282)
  joinBad : Bool         -- a join has met a sheaf whose tag fails (R329)
  badSheaves : List Nat  -- sheaves whose tag fails (R334)
  parts   : Nat          -- switches that have made this version: 1, or the pieces applied (R190, R194)
  gone    : List Nat     -- sheaves that were LOST where the value was copied from (R269, R272)
  sid     : Nat          -- the write that stored it (page header, R278)
  tag     : Nat
  seq     : Nat
  deriving DecidableEq, Repr

/-- A tombstone record (R258). -/
structure Tomb where
  space   : Nat
  key     : List Byte
  hash    : DWord
  version : Nat
  rseq    : Nat
  loc     : Nat          -- LOC of its record
  recSeal : Nat          -- COUNT under which the record is sealed
  recKey  : BitVec 256
  lag     : Bool         -- removed on this copy alone (R269)
  deriving DecidableEq, Repr

/-- A group link (R253): OVF_MAP and the overflow buckets of the chain, in order. -/
structure Link where
  map   : Nat
  chain : List Nat
  deriving DecidableEq, Repr

/-- Buffer unit states of Table 5-5; a unit not listed is FREE. -/
inductive UnitSt where
  | filling | held | draining
  deriving DecidableEq, Repr

/-- A protected-buffer unit and the write whose data it holds. -/
structure BufUnit where
  st    : UnitSt
  cid   : Option Nat
  space : Nat
  key   : List Byte
  ver   : Nat
  early : Bool           -- its write has not switched yet (R188)
  deriving DecidableEq, Repr

/-- What stands in the hazard table (R180): a command, or the internal HOLD of R235. -/
inductive HazItem where
  | cmd (cid : Nat)
  | hold (space : Nat) (key : List Byte) (version : Nat)
  deriving DecidableEq, Repr

structure Haz where
  item  : HazItem
  space : Nat
  hash  : DWord
  deriving DecidableEq, Repr

/-- A key as it stood before a journal record: its entry and its tombstones. -/
structure Before where
  space : Nat
  key   : List Byte
  ent   : Option KeyEnt
  tombs : List Tomb
  deriving DecidableEq, Repr

/-- A journal record (Table 7-6), with the checkpoint segments it changes (R264) and, for a record of a key,
what stood before it: replay that ends before the record leaves the key so (R266). -/
structure JRec where
  type   : Nat
  space  : Nat
  eflags : Nat
  lenCode : Nat
  hash   : DWord
  rseq   : Nat
  loc    : Nat
  oldLoc : Nat
  tagSeq : Nat
  segs   : List Nat
  was    : Option Before
  deriving DecidableEq, Repr

/-- Superblock states of Table 8-5, in table order; a superblock not listed is ERASED. -/
inductive SbSt where
  | erased | slcOpen | slcFull | tedding | qlcOpen | qlcFull | gleaning | erasing | retired
  deriving DecidableEq, Repr

structure Sb where
  st       : SbSt
  slc      : Bool             -- last used in SLC mode
  isMeta   : Bool             -- in the metadata reserve
  refresh  : Bool
  closed   : Bool
  replaced : Nat
  wear     : Nat
  closedS  : Nat
  order    : Nat              -- order of closing
  failed   : List Nat         -- planes (die * 4 + plane) whose block has failed
  erasedOn : List Nat         -- dies already erased
  target   : Bool             -- marked for a secure discard
  written  : Nat              -- data pages programmed since it opened
  keys     : List (Nat × DWord)  -- key filter: key space and hash of what was written into it
  deriving DecidableEq, Repr

/-- An operation in progress on a die, which holds its tokens (R302, R424). -/
structure DieOp where
  op    : NandOp
  by_   : Asker
  old   : Bool                -- started before the token pool was last lowered (R419)
  direct : Bool               -- started while drains went direct (R287)
  susp  : Nat                 -- times suspended
  held  : Bool                -- suspended now
  reads : Nat                 -- reads served in this suspension
  deriving DecidableEq, Repr

/-- A request that waits for tokens, with the tick at which it was made (R425). -/
structure TokenWait where
  ask  : TokenAsk
  made : Nat
  deriving DecidableEq, Repr

/-- A programmed NAND page: its header (R278), the keys whose records or values it holds (R311), and its data. -/
structure NandPage where
  unit  : Nat                 -- the map unit it holds
  rseq  : Nat                 -- record sequence number current when it was programmed
  first : Option (Nat × DWord × Nat × Nat × Nat)   -- of the first value that begins in it: key space, hash, session, tag, request number
  keys  : List (Nat × DWord)
  data  : List Byte
  deriving DecidableEq, Repr

/-- Units programmed in QLC mode that cannot be read back yet (R286): their wordline, and who moved them. -/
structure Unready where
  sb   : Nat
  die  : Nat
  row  : Nat
  by_  : Mover
  move : UnitMove
  deriving DecidableEq, Repr

/-- A page of the packing area (R288). -/
structure PackPage where
  used   : Nat
  items  : List (Nat × List Byte × Nat × Nat × Nat)   -- key space, key, version, first byte, bytes
  closed : Bool
  deriving DecidableEq, Repr

/-- A secure discard in progress (R312). -/
structure Discard where
  cid     : Nat
  space   : Nat
  key     : List Byte
  hash    : DWord
  version : Nat               -- the version removed
  begun   : Bool              -- the first response message is out, and the targets are marked
  targets : List Nat
  wiped   : Bool              -- step 2 is done
  deriving DecidableEq, Repr

/-- A 512-byte unit of the value cache, by its place in the logical space (R260). A dead one has been freed
while a read pins it (R262). -/
structure VcEnt where
  unit  : Nat
  used  : Bool
  dead  : Bool
  deriving DecidableEq, Repr

/-- An entry of the hold ring (R611). -/
structure HoldEnt where
  space   : Nat
  hash    : DWord
  version : Nat
  sel     : Nat
  clock   : Nat
  stamp   : Nat
  mins    : Nat               -- HOLD_MIN of the winning rule
  deriving DecidableEq, Repr

/-- A correction-log entry (R347). -/
structure LogEnt where
  granule : Nat
  dev     : Nat               -- 15 when uncorrectable
  count   : Nat
  passes  : Nat
  source  : Nat
  seen    : Nat               -- last patrol pass counted
  deriving DecidableEq, Repr

structure Swath where
  ready    : Bool              -- has reported ready (R208 step 6)
  fallow   : Bool
  failed   : Bool              -- does not start (R371, R375)
  leftOff  : Bool              -- left offline after resets (R589) or a failed test (R583)
  keys     : List KeyEnt       -- by keyed hash, then key bytes
  tombs    : List Tomb
  links    : Tbl Link          -- by GROUP
  haz      : List Haz          -- arrival order
  units    : Tbl BufUnit
  ring     : List JRec
  rseq     : Nat               -- RSEQ of the next record
  dirty    : List Nat          -- segments changed since their checkpoint
  pass     : Option (Nat × List Nat)   -- checkpoint pass running: RSEQ at its start, segments it writes
  ckpt     : Tbl Nat           -- RSEQ of each segment's checkpoint
  passAt   : Nat               -- tick at which the last pass started
  rebuild  : List Nat          -- segments without a readable checkpoint (R267)
  passReq  : Bool              -- FORCE written (R264)
  pages    : Tbl NandPage      -- programmed pages by physical page address
  unready  : List Unready
  map      : Tbl Word          -- page map; an absent unit is UNMAPPED with ADDR 0
  sbs      : Tbl Sb
  blocks   : Tbl Nat           -- superblock table: block of a superblock and plane, where it is not of its number
  spares   : Tbl (List Nat)    -- spare blocks by plane, where they are not the 64 above 2,047 (R280)
  badBlks  : List (Nat × Nat)  -- bad-block list: plane (die * 4 + plane) and block
  slcOpen  : Option Nat
  hostOpen : Option Nat
  gleanOpen : Option Nat
  metaOpen : Option Nat
  ted      : Option (Nat × Bool)   -- superblock being tedded, by age
  glean    : Option (Nat × Bool)   -- superblock being gleaned; its units go to the most worn
  mode     : Nat               -- SW_MED_STAT.MODE
  sbOrder  : Nat
  ops      : Tbl DieOp
  waits    : List TokenWait    -- requests that wait for tokens, in the order made
  pack     : Tbl PackPage
  packOpen : Option Nat
  discards : List Discard
  vc       : List VcEnt
  hostB    : Nat               -- host value bytes accepted
  progB    : Nat               -- QLC-equivalent bytes programmed, in fifths
  gleanB   : Nat
  count    : Nat               -- COUNT of R325
  mark     : Nat               -- M of R326
  slotsIn  : List Nat          -- key slots loaded
  holdDue  : List (HoldIn × Nat)   -- activations accepted before the swath was ready, with their moments (R471)
  holdRing : List HoldEnt
  dram     : Tbl (List Byte)   -- DRAM beats whose ten bytes are not those of the fill: granule * 16 + beat (R341, R345)
  log      : Tbl LogEnt
  logAt    : Nat
  patrolNo : Nat               -- patrol passes ended
  patrolAt : Nat               -- granule the patrol reads next (R349)
  cl       : List (Nat × Nat)  -- count-and-log table: granule, position
  remap    : List Nat          -- pages retired, in entry order
  ueSeen   : List Nat          -- granules that had an uncorrectable error (R361)
  ueOver   : List Nat          -- those that have been refilled or rewritten since (R361)
  spareLines : Nat             -- journal-memory spare lines
  gaps     : Tbl Nat           -- start-gap position by region
  jmWear   : Nat               -- journal lines written
  trapped  : Bool              -- the core has stopped on a trap
  flushed  : List Nat          -- buffer units in the flush area
  flushBad : List (Nat × Nat)  -- units and quarters of the uncorrectable beats the flush header lists (R358)
  hiMark   : Option Nat        -- high mark written by a good flush
  wipe     : Option (Tbl Nat)  -- while SANITIZE erases the swath: rows of blocks each die has erased (R573)
  deriving DecidableEq, Repr

/-! ### Power, inputs, start, settings, update, administration (chapters 12, 13, 15, 16) -/

/-- Power manager; PWR_ registers hold the rest. -/
structure Power where
  waiting  : Bool              -- power wait (R414, R420)
  off      : Bool              -- no supply: stopped after a flush
  allocMw  : Nat               -- the allocation the drive echoes over LLDP
  lldpTalk : Bool              -- the switch has answered over LLDP (R418)
  lowering : Bool              -- a lowered budget has not been echoed yet (R419)
  pool     : Nat               -- token pool from the budget (R422)
  effective : Nat              -- pool after LEVEL (R427)
  levelP   : Nat               -- LEVEL by the power loop
  levelT   : Nat               -- LEVEL by temperature
  okTicks  : Nat               -- power-loop ticks below the budget in a row
  coolTicks : Nat
  slow     : List Nat          -- islands whose clock a droop halves (R428)
  slowT    : List Nat          -- islands whose clock temperature halves (R432)
  droops   : Tbl Nat           -- droop count by island
  droopMs  : Tbl Nat           -- droops in this millisecond (R429)
  temp     : Tbl Int           -- last reading by sensor, 0.1 degree C
  tempMax  : Tbl Int
  warned   : List Nat          -- sensors at or over their warning level
  limited  : List Nat          -- sensors over their limit
  stopped  : Bool              -- stopped on critical temperature (R433)
  charged  : Bool
  testDue  : Bool              -- a bank test is to run: one of the start, or TEST_NOW (R436)
  capUnits : Nat               -- N of R437
  pfActive : Bool              -- power-fail raised, flush running
  pfCause  : Nat
  pfPend   : Bool              -- the record 0x0904 is due at the next start
  deriving DecidableEq, Repr

/-- One of the discrete inputs (R464). -/
structure InputSt where
  active : Bool
  stuck  : Bool
  susp   : Bool
  suspS  : Nat                 -- seconds of suspension left
  recent : List Nat            -- moments of accepted changes (R468)
  since  : Nat                 -- hold clock at the accepted activation (R471)
  deriving DecidableEq, Repr

structure Io where
  holdA   : InputSt
  holdB   : InputSt
  rst     : InputSt
  upLock  : Bool
  dnLock  : Bool
  upHere  : Bool
  dnHere  : Bool
  ledAct  : Bool               -- LED_ACT_N lit
  faultN  : Bool               -- FAULT_N driven low by a start that cannot go on
  holdReset : Bool             -- held in reset by RST_IN_N
  applying : List HoldIn       -- inputs whose activation is still being applied
  hold    : Nat                -- the hold clock (R237)
  deriving DecidableEq, Repr

/-- A key space as the settings image defines it (Table 15-8). -/
structure SpaceDef where
  pairing : Nat
  set_    : Option Nat
  qprio   : Nat
  keyId   : Word
  retainS : Nat
  mirror  : Bool
  deriving DecidableEq, Repr

/-- A permission profile (Table 4-3). -/
structure ProfileDef where
  mask : Nat
  map  : BitVec 256
  deriving DecidableEq, Repr

/-- A settings image, already cut into its sections. -/
structure Settings where
  format   : Nat
  signer   : Nat
  series   : Nat
  serial   : List Byte
  regs     : List (Nat × Word)
  spaces   : Tbl SpaceDef
  profiles : Tbl ProfileDef
  anchors  : List Nat                -- profile of each trust anchor
  placement : Tbl (Fin 16 × Fin 16)  -- HOME and PARTNER by slot
  tcam     : Tbl (List Word)
  pattern  : Tbl Word
  release_ : Bool
  bytes    : List Byte
  deriving DecidableEq, Repr

/-- States of the four NOR slots (Table 15-2). -/
inductive SlotSt where
  | empty | stored | pending | trial | active | fallback | superseded
  deriving DecidableEq, Repr

/-- A firmware image's header fields (Table 15-4). -/
structure FwHdr where
  bytes     : List Byte
  secVer    : Nat
  fwVer     : Nat
  len       : Nat
  formats   : Word
  minFrom   : Nat
  deriving DecidableEq, Repr

/-- A wrapped data key in the fixed region of the steward's journal memory (R316): the KEK salt and the key under which its
40 bytes were written, and whether they are still as written. -/
structure KeyCopy where
  salt  : BitVec 256
  key   : BitVec 256
  whole : Bool
  deriving DecidableEq, Repr

/-- A data key of the steward's store (R315, R316): as loaded, and its two stored copies. -/
structure DataKey where
  ident   : Word
  key     : BitVec 256
  gen     : Nat
  unwrapBad : Bool           -- neither copy passes its integrity check (R318)
  copyA : KeyCopy
  copyB : KeyCopy
  deriving DecidableEq, Repr

/-- A transfer in the staging area (R528). -/
structure Transfer where
  hdr    : FwHdr
  id     : Word
  got    : Nat
  data   : List Byte
  chain  : Bool                -- it came over the Aethem link
  storing : Bool               -- digest good, being programmed into the slot
  xfer   : Word                -- XFER of its chain frames (R532)
  hop    : Nat                 -- links its header has crossed; 0 where the image entered
  gap    : Bool                -- frames after a gap are being discarded (R534)
  deriving DecidableEq, Repr

/-- An inventory entry kept for a drive downstream (R536). -/
structure InvEnt where
  bytes : List Byte
  stale : Bool
  deriving DecidableEq, Repr

/-- A frame sent on the chain: downstream or upstream. -/
structure ChainOut where
  down   : Bool
  type   : Nat
  frame  : ChainFrame
  copies : Nat                 -- times it is sent, 1 ms apart (R534)
  deriving DecidableEq, Repr

structure Boot where
  running  : Bool              -- the drive has started
  fwA      : SlotSt
  fwB      : SlotSt
  hdrA     : Option FwHdr
  hdrB     : Option FwHdr
  fwSlotB  : Bool              -- slot B is running
  tries    : Nat
  setA     : SlotSt
  setB     : SlotSt
  imgA     : Option Settings
  imgB     : Option Settings
  setSlotB : Bool
  set_     : Settings          -- the settings applied
  secCount : Nat               -- anti-rollback counter (R545)
  secWant  : Nat
  owner    : Option (List Byte)
  enrolSeries : Nat
  identity : List Byte         -- serial number, 24 bytes
  mac      : BitVec 48         -- MAC address of port A
  cert     : List Byte
  keys     : Tbl DataKey
  saltA    : BitVec 256        -- the KEK salt, in two copies (R316)
  saltB    : BitVec 256
  everUp   : Bool              -- a first start has happened
  clean    : Bool              -- the shutdown mark is the last journal entry
  cause    : Nat               -- cause of the start to come
  xfer     : Option Transfer
  whenAt   : Nat               -- WHEN of a pending activation, 0 for none
  journalFormats : Word
  migrated : List Nat          -- swaths whose migration has finished
  warned   : Bool              -- a settings warning has been recorded this start
  inv      : Tbl InvEnt
  chainOut : List ChainOut     -- frames sent on the chain since start, in order
  chainSeen : List (Nat × ChainFrame × Nat)   -- type and tick of frames acted on lately (R534)
  bankHealth : Nat             -- hold-up bank health as last recorded (R438)
  soft     : Tbl Nat           -- SRAM rows repaired by BIST, by block * 65,536 + macro; block 16 is the host port and steward (R370)
  heathEn  : Bool              -- retained copy of PWR_CTRL.HEATH_EN (R411)
  payA     : List Byte         -- encrypted payload in firmware slot A
  payB     : List Byte
  idA      : Nat               -- IMAGE_ID under which slot A was stored, 0 for none
  idB      : Nat
  factory  : Settings          -- factory settings image of the identity region (R557)
  seenKeys : List (Nat × DataKey)   -- key space and pair no longer in use but recorded (R315)
  pairings : Tbl Nat           -- PAIRING last applied, by key space (R554)
  restart  : Bool              -- the clean shutdown under way ends in a start (R538, R556)
  goodAt   : Nat               -- tick of power-good
  deriving DecidableEq, Repr

/-- An admin job (R169, R565): key JOB * 256 + TARGET; a FORMAT of every key space has key 7 * 256. -/
structure Job where
  st      : Nat                -- PROGRESS STATE
  result  : Nat
  permille : Nat
  elapsed : Nat
  arg     : Nat                -- scope, foster mask, passes
  act     : Nat                -- EVACUATE ACTION or SWATH_TEST TEST
  deriving DecidableEq, Repr

structure Admin where
  jobs  : Tbl Job
  slot  : Option Nat           -- slot an EVACUATE job is moving
  foster : Option (Fin 16)
  copies : Nat                 -- copy passes made for it
  moved  : Nat                 -- slots the job has moved
  deriving DecidableEq, Repr

/-! ### The drive -/

structure Dev where
  regs  : Tbl Word             -- management registers by byte address
  prs   : Tbl Word             -- select, address and latched registers by requester path (R601, R602)
  now   : Nat                  -- 1/1024 s ticks since reset
  freeNo : Nat                 -- the model's own: free values taken so far
  portA : PortSt
  portB : PortSt
  portC : PortSt
  pool  : Nat                  -- receive-pool cells taken outside the class 7 reserve
  pool7 : Nat                  -- cells taken from the reserve
  ses   : Ses
  disp  : Disp
  pol   : Pol
  irq   : Irq
  cal   : Cal
  evr   : Recorder
  sws   : Vector Swath 16
  pw    : Power
  io    : Io
  boot  : Boot
  adm   : Admin
  deriving DecidableEq, Repr

/-- The state: the drive, and the commands waiting, first in, first out. -/
structure State where
  dev     : Dev
  pending : List Instr
  deriving DecidableEq, Repr

/-- Reasons a step can stop with a fault. None: the spec gives every command an effect, and a
command that finds nothing to act on leaves the drive as it is (safe: the model never stops where
the drive goes on). -/
inductive Fault where
  deriving DecidableEq, Repr

/-- Reasons a command is refused by the model. -/
inductive Refusal where
  /-- Raised by the dispatch of a command that has no meaning yet (safe: the model stops). -/
  | notModelled (mnemonic : String)
  deriving DecidableEq, Repr

/-! ### Reset -/

def PortSt.reset : PortSt where
  rxq := []; txq := []; octRx := 0; octTx := 0; sentGood := []
  ownPause := false; ownPause7 := false; ownHold := false
  gclOper := [(0, 0xFF#32), (1, 1000000000#32)]; gclAdmin := []; gclLen := 1; gclCycle := 1000000
  gclIdx := 0; lowAdv := false; eeeAdv := false; stepped := false; stepWait := none; icmp := 0
  rxStamp := none; txStamp := none; last := none

def Ses.reset : Ses := { ctx := [], opens := [], openWin := 0, openSeq := 0 }

/-- Slot s under R246. -/
def Slot.home0 (s : Nat) : Slot where
  owner := ⟨s % 16, Nat.mod_lt _ (by decide)⟩
  partner := ⟨(s + 8) % 16, Nat.mod_lt _ (by decide)⟩
  home := ⟨s % 16, Nat.mod_lt _ (by decide)⟩
  st := 0; copied := false; part := false; moved := []

/-- Admission number 1 comes first: the number is never 0 (R137). -/
def Disp.reset : Disp where
  cmds := []; nextCid := 0; wait := []; inbox := []; inbound := []; admNum := 1; tags := 0
  slots := []; lfree := []; pfree := []; kfree := []; inv := 0; invTab := []; fc := []
  fcBlock := false; fills := []; defLog := []; defNo := 0; defDue := false; secret := 0; plc := []

def Pol.reset : Pol where
  tc := []; stage := []; shift := none; bankA := []; bankB := []; keys := []; keyNo := 0; lanes := []; tkey := []
  tkeyAt := 0; testing := none; sweep := 0

def Irq.reset : Irq := { src := [], out := [], rst := [], steps := [], claimRead := [], asker := [], due := [] }

def Recorder.reset : Recorder where
  intake := []; accums := []; recs := []; next := 1; lostPend := 0; overThis := false

def Cal.reset : Cal where
  tick := 0; uncertUs := 0; slew := 0; slewAcc := 0; master := none; inRange := 0; leap := none
  leapFrom := 0; hold := 0; saved := 0; savedU := 0; savedTrust := 0; hadMin := false
  ptpSec := 0; ptpNs := 0; ptpHalf := false; offset := 0

def Swath.reset : Swath where
  ready := false; fallow := false; failed := false; leftOff := false; keys := []; tombs := []; links := []; haz := []
  units := []; ring := []; rseq := 1; dirty := []; pass := none; ckpt := []
  passAt := 0; rebuild := []
  passReq := false; pages := []; unready := []; map := []; sbs := []; blocks := []; spares := []; badBlks := []; slcOpen := none
  hostOpen := none; gleanOpen := none; metaOpen := none; ted := none; glean := none; mode := 0
  sbOrder := 0; ops := []; waits := []; pack := []; packOpen := none; discards := []; vc := []; hostB := 0
  progB := 0; gleanB := 0; count := 1; mark := 1048576; slotsIn := []; holdDue := []; holdRing := []; dram := []; log := []
  logAt := 0; patrolNo := 0; patrolAt := 0; cl := []; remap := []; ueSeen := []; ueOver := []; spareLines := 524288; gaps := []
  jmWear := 0; trapped := false; flushed := []; flushBad := []; hiMark := none; wipe := none

def Power.reset : Power where
  waiting := false; off := false; allocMw := 0; lldpTalk := false; lowering := false
  pool := 0; effective := 0; levelP := 0; levelT := 0; okTicks := 0; coolTicks := 0; slow := []; slowT := []
  droops := []; droopMs := []; temp := []; tempMax := []; warned := []; limited := []
  stopped := false; charged := false; testDue := false; capUnits := 0; pfActive := false; pfCause := 0
  pfPend := false

def InputSt.reset : InputSt :=
  { active := false, stuck := false, susp := false, suspS := 0, recent := [], since := 0 }

def Io.reset : Io where
  holdA := .reset; holdB := .reset; rst := .reset; upLock := false; dnLock := false
  upHere := false; dnHere := false; ledAct := false; faultN := false
  holdReset := false; applying := []; hold := 0

/-- The settings in force before any image is applied: reset values only. -/
def Settings.reset : Settings where
  format := 0; signer := 1; series := 0; serial := []; regs := []; spaces := []; profiles := []
  anchors := []; placement := []; tcam := []; pattern := []; release_ := false; bytes := []

def Boot.reset : Boot where
  running := false; fwA := .active; fwB := .empty; hdrA := none; hdrB := none
  fwSlotB := false; tries := 0; setA := .empty; setB := .empty; imgA := none; imgB := none
  setSlotB := false; set_ := .reset; secCount := 0; secWant := 0; owner := none; enrolSeries := 0
  identity := []; mac := 0; cert := []; keys := []; saltA := 0; saltB := 0; everUp := false; clean := false
  cause := 1; xfer := none; whenAt := 0; journalFormats := 0; migrated := []
  warned := false; inv := []; chainOut := []; chainSeen := []; bankHealth := 1; soft := []; heathEn := true
  payA := []; payB := []; idA := 0; idB := 0; factory := .reset; seenKeys := []; pairings := []
  restart := false; goodAt := 0

def Admin.reset : Admin := { jobs := [], slot := none, foster := none, copies := 0, moved := 0 }

def Dev.reset : Dev where
  regs := []; prs := []; now := 0; freeNo := 0; portA := .reset; portB := .reset; portC := .reset
  pool := 0; pool7 := 0; ses := .reset; disp := .reset; pol := .reset
  irq := .reset; cal := .reset; evr := .reset; sws := Vector.replicate 16 Swath.reset
  pw := .reset; io := .reset; boot := .reset; adm := .reset

/-- The drive right after a reset of the whole drive, before it starts and applies settings; no
command waits. -/
def State.reset : State := { dev := .reset, pending := [] }

end Sys2Proof.Machine
end

