-- ==== Sys2Proof/Machine/Crypto.lean ====
section
/-!
DEFINITION. Key derivation and nonces as the spec builds them from the algorithms it names: HMAC and HKDF
with SHA-384 (R111), the keys of a session epoch, the nonce and sealed form of a frame (R112). SHA-384,
AES-256-GCM and P-384 themselves are the opaque constants of Config.
-/
namespace Sys2Proof.Machine

/-- Bytes XORed in pairs. -/
def xorBytes (a b : List Byte) : List Byte := List.zipWith (· ^^^ ·) a b

/-- HMAC with SHA-384 (block of 128 bytes). -/
def hmac384 (key msg : List Byte) : List Byte :=
  let k := padTo 128 (if 128 < key.length then sha384 key else key)
  sha384 (k.map (· ^^^ 0x5C#8) ++ sha384 (k.map (· ^^^ 0x36#8) ++ msg))

/-- HKDF extract. -/
def hkdfExtract (salt ikm : List Byte) : List Byte := hmac384 salt ikm

/-- HKDF expand to at most 48 bytes, one block of its output. -/
def hkdfExpand (prk info : List Byte) (n : Nat) : List Byte := (hmac384 prk (info ++ [1#8])).take n

/-- The labels of R111 in ASCII. -/
def Label.epoch : List Byte := [0x53, 0x4B, 0x50, 0x31, 0x20, 0x65, 0x70, 0x6F, 0x63, 0x68]
def Label.next : List Byte := [0x53, 0x4B, 0x50, 0x31, 0x20, 0x6E, 0x65, 0x78, 0x74]
def Label.h2dKey : List Byte := [0x53, 0x4B, 0x50, 0x31, 0x20, 0x68, 0x32, 0x64, 0x20, 0x6B, 0x65, 0x79]
def Label.h2dIv : List Byte := [0x53, 0x4B, 0x50, 0x31, 0x20, 0x68, 0x32, 0x64, 0x20, 0x69, 0x76]
def Label.d2hKey : List Byte := [0x53, 0x4B, 0x50, 0x31, 0x20, 0x64, 0x32, 0x68, 0x20, 0x6B, 0x65, 0x79]
def Label.d2hIv : List Byte := [0x53, 0x4B, 0x50, 0x31, 0x20, 0x64, 0x32, 0x68, 0x20, 0x69, 0x76]

/-- The ECDH shared secret z, 48 bytes. -/
def ecdhX (priv pub : List Byte) : List Byte := (List.range 48).map (Config.ecdhByte priv pub)

/-- s[0]: from both nonces, z and TH3 (R111). -/
def firstSecret (hostNonce driveNonce z th3 : List Byte) : List Byte :=
  hkdfExpand (hkdfExtract (hostNonce ++ driveNonce) z) (Label.epoch ++ th3) 48

/-- s[e + 1] from s[e]. -/
def nextSecret (s : List Byte) : List Byte := hkdfExpand s Label.next 48

/-- The keys and IVs of the epoch whose secret is s. -/
def keysOf (s : List Byte) : KeySet where
  kH2d := hkdfExpand s Label.h2dKey 32
  ivH2d := hkdfExpand s Label.h2dIv 12
  kD2h := hkdfExpand s Label.d2hKey 32
  ivD2h := hkdfExpand s Label.d2hIv 12

/-- The nonce of a frame: the IV XOR a block of OPCODE, 5 bytes of 0, FRAG_INDEX and SEQ (R112). -/
def frameNonce (iv : List Byte) (op idx seq : Nat) : List Byte :=
  xorBytes iv (be 1 op ++ zeros 5 ++ be 2 idx ++ be 4 seq)

/-- AES-256-GCM of a plaintext: ciphertext and 16-byte tag. -/
def gcmSeal (key nonce aad plain : List Byte) : List Byte :=
  (List.range (plain.length + 16)).map (Config.gcmByte key nonce aad plain)

/-- The sealed form of a frame the drive sends: its payload under k_d2h, with the 32-byte header as
associated data (R112). -/
def sealFrame (k : KeySet) (op idx seq : Nat) (hdr plain : List Byte) : List Byte :=
  gcmSeal k.kD2h (frameNonce k.ivD2h op idx seq) hdr plain

end Sys2Proof.Machine
end

