-- ==== Sys2Proof/Machine/Operands.lean ====
section
/-!
DEFINITION. How a request spells its operands: opcodes and their lengths (Table 4-1, R128), the data
request block (Table 4-4), the status codes (Table 4-2), the SKP header's bytes (Table 3-1) and the
order of sequence numbers (R93, R608).
-/
namespace Sys2Proof.Machine

/-! ### Opcodes (Table 4-1) -/

def Op.get : Nat := 0x01
def Op.getRange : Nat := 0x02
def Op.head : Nat := 0x03
def Op.put : Nat := 0x08
def Op.putStream : Nat := 0x09
def Op.writeRange : Nat := 0x0A
def Op.append : Nat := 0x0B
def Op.casPut : Nat := 0x0C
def Op.delete : Nat := 0x10
def Op.discardSecure : Nat := 0x11
def Op.hold : Nat := 0x12
def Op.list : Nat := 0x18
def Op.sessionOpen : Nat := 0x20
def Op.sessionClose : Nat := 0x21
def Op.rekey : Nat := 0x22
def Op.queueReset : Nat := 0x23
def Op.ack : Nat := 0x24
def Op.notify : Nat := 0x28
def Op.notifyDone : Nat := 0x29
def Op.regRead : Nat := 0x30
def Op.regWrite : Nat := 0x31
def Op.status : Nat := 0x32
def Op.recordRead : Nat := 0x33
def Op.timeSet : Nat := 0x34
def Op.functionReset : Nat := 0x38
def Op.swathTest : Nat := 0x39
def Op.evacuate : Nat := 0x3A
def Op.sanitize : Nat := 0x40
def Op.format : Nat := 0x41
def Op.progress : Nat := 0x42
def Op.settingsWrite : Nat := 0x48
def Op.imageBegin : Nat := 0x49
def Op.imageData : Nat := 0x4A
def Op.imageActivate : Nat := 0x4B
def Op.attest : Nat := 0x4C
def Op.takeOwnership : Nat := 0x4D

/-- The opcodes a host may send (R127; NOTIFY is the drive's own, R85). -/
def knownOps : List Nat :=
  [0x01, 0x02, 0x03, 0x08, 0x09, 0x0A, 0x0B, 0x0C, 0x10, 0x11, 0x12, 0x18, 0x20, 0x21, 0x22, 0x23,
    0x24, 0x29, 0x30, 0x31, 0x32, 0x33, 0x34, 0x38, 0x39, 0x3A, 0x40, 0x41, 0x42, 0x48, 0x49, 0x4A,
    0x4B, 0x4C, 0x4D]

/-- Data opcodes: those with the block of Table 4-4. -/
def isData (op : Nat) : Bool := decide (0x01 ≤ op ∧ op ≤ 0x18)

/-- The five write opcodes. -/
def isWrite (op : Nat) : Bool := decide (0x08 ≤ op ∧ op ≤ 0x0C)

def isRead (op : Nat) : Bool := decide (op ≤ 0x03)

/-- The commands R73 names. -/
def isChange (op : Nat) : Bool := isWrite op || op == Op.delete || op == Op.discardSecure || op == Op.hold

/-- ACK, QUEUE_RESET, SESSION_CLOSE and SESSION_OPEN take no credit (R103, Table 4-1). -/
def takesCredit (op : Nat) : Bool :=
  !(op == Op.sessionOpen || op == Op.sessionClose || op == Op.queueReset || op == Op.ack)

/-- The permission bit of Table 4-3 that an opcode needs; none for the session opcodes. HOLD with
ACTION 2 needs OVERRIDE. -/
def permBit (op action : Nat) : Option Nat :=
  if op ≤ 0x03 ∨ op = Op.list then some 0
  else if isWrite op then some 1
  else if op = Op.delete ∨ op = Op.discardSecure then some 2
  else if op = Op.hold then some (if action = 2 then 8 else 3)
  else if op ∈ [Op.notifyDone, Op.regRead, Op.status, Op.recordRead, Op.progress, Op.attest] then some 4
  else if op ∈ [Op.regWrite, Op.timeSet, Op.functionReset, Op.swathTest, Op.evacuate] then some 5
  else if op = Op.sanitize ∨ op = Op.format then some 6
  else if 0x48 ≤ op ∧ op ≤ 0x4D then some 7
  else none

/-- The MSG_LEN limit of an opcode (R128). -/
def msgLimit (op : Nat) : Nat :=
  if isWrite op then 67109408
  else if op = Op.list then 560
  else if isData op then 544
  else if op = Op.rekey ∨ op = Op.queueReset ∨ op = Op.notifyDone ∨ op = Op.evacuate ∨ op = Op.progress then 4
  else if op = Op.regRead ∨ op = Op.recordRead ∨ op = Op.swathTest ∨ op = Op.sanitize ∨ op = Op.format then 8
  else if op = Op.regWrite then 3076
  else if op = Op.timeSet ∨ op = Op.functionReset ∨ op = Op.imageActivate then 16
  else if op = Op.settingsWrite then 4194304
  else if op = Op.imageBegin then 512
  else if op = Op.imageData then 67108872
  else if op = Op.attest then 32
  else if op = Op.takeOwnership then 196
  else if op = Op.sessionOpen then 8292
  else if op = Op.ack then 136
  else 0

/-- Bytes of a request's fixed fields that fragment 0 must hold, its key apart (R87). -/
def fixedLen (op : Nat) : Nat :=
  if isData op then 32
  else if op = Op.regWrite then 4
  else if op = Op.settingsWrite then 0
  else if op = Op.imageData then 8
  else msgLimit op

/-! ### Status codes (Table 4-2) -/

def St.ok : Nat := 0x00
def St.notFound : Nat := 0x01
def St.noSpace : Nat := 0x02
def St.keysExhausted : Nat := 0x03
def St.mediaWorn : Nat := 0x04
def St.mediaLost : Nat := 0x05
def St.mediaAuthFail : Nat := 0x06
def St.retained : Nat := 0x07
def St.versionMismatch : Nat := 0x08
def St.rangeInvalid : Nat := 0x09
def St.tooLarge : Nat := 0x0A
def St.permission : Nat := 0x0B
def St.busy : Nat := 0x0C
def St.malformed : Nat := 0x0D
def St.sessionFrozen : Nat := 0x0E
def St.keyEpochExhausted : Nat := 0x0F
def St.swathOffline : Nat := 0x10
def St.swathReset : Nat := 0x11
def St.queueReset : Nat := 0x12
def St.timeUntrusted : Nat := 0x13

/-! ### The data request block (Table 4-4) -/

structure Block where
  keyLen  : Nat
  opflags : Nat
  len     : Nat
  version : Nat
  stamp   : Nat
  offset  : Nat
  aux     : Nat
  deriving DecidableEq, Repr

def blockOf (p : List Byte) : Block where
  keyLen := fieldBe p 0 2
  opflags := fieldBe p 2 2
  len := fieldBe p 4 4
  version := fieldBe p 8 8
  stamp := fieldBe p 16 8
  offset := fieldBe p 24 4
  aux := fieldBe p 28 4

/-- The key, or LIST's prefix. -/
def keyOf (p : List Byte) : List Byte := slice p 32 (fieldBe p 0 2)

/-- The bytes after the key. -/
def dataOf (p : List Byte) : List Byte := p.drop (32 + fieldBe p 0 2)

def Block.create (b : Block) : Bool := bit b.opflags 0
def Block.ifVersion (b : Block) : Bool := bit b.opflags 1
def Block.noCache (b : Block) : Bool := bit b.opflags 2
def Block.noMeta (b : Block) : Bool := bit b.opflags 3

/-- Payload bytes fragment 0 must hold: the fixed fields and the whole key (R87). -/
def frag0Need (op : Nat) (p : List Byte) : Nat :=
  if isData op then 32 + (if p.length < 2 then 0 else fieldBe p 0 2) else fixedLen op

/-- The length a request's own fields give (R129); none where any length is right. -/
def ownLength (op : Nat) (p : List Byte) : Option Nat :=
  if isData op then
    let b := blockOf p
    some (if op = Op.list then 48 + b.keyLen else if isWrite op then 32 + b.keyLen + b.len
      else 32 + b.keyLen)
  else if op = Op.regWrite then some (4 + 12 * fieldBe p 0 2)
  else if op = Op.settingsWrite ∨ op = Op.imageData then none
  else some (msgLimit op)

/-- TOO_LARGE by a length field (R142). -/
def tooLong (op : Nat) (p : List Byte) : Bool :=
  isData op && (decide (512 < (blockOf p).keyLen) || (isWrite op && decide (67108864 < (blockOf p).len)))

/-- OPFLAGS bits Table 4-5 gives an opcode. -/
def opflagsOf (op : Nat) : Nat :=
  if op = Op.append then 1
  else if op = Op.get ∨ op = Op.getRange then 6
  else if op = Op.head ∨ op = Op.delete then 2
  else if op = Op.list then 8
  else 0

/-- A reserved OPFLAGS bit is set: a breach (R141). -/
def opflagsReserved (op : Nat) (p : List Byte) : Bool := isData op && decide (16 ≤ (blockOf p).opflags)

/-- A reserved field of a request's payload outside the data group is not 0: a breach (R85, Tables 3-10, 4-14, 4-16,
4-17 and 4-20). Bits a table gives as 'others 0' are reserved, as R109 calls those of MODE. -/
def payloadReserved (op : Nat) (p : List Byte) : Bool :=
  if op = Op.rekey ∨ op = Op.queueReset ∨ op = Op.notifyDone ∨ op = Op.regWrite ∨ op = Op.swathTest ∨ op = Op.progress then
    fieldBe p 2 2 != 0
  else if op = Op.regRead then fieldBe p 6 2 != 0
  else if op = Op.recordRead then fieldBe p 7 1 != 0
  else if op = Op.timeSet then fieldBe p 12 4 != 0
  else if op = Op.sanitize then decide (1 < fieldBe p 4 4)
  else if op = Op.format then decide (1 < fieldBe p 1 1) || fieldBe p 2 2 != 0
  else if op = Op.takeOwnership then fieldBe p 97 3 != 0
  else false

/-- The block contradicts Table 4-6 or names nothing: MALFORMED (R141, R142, R156, R163). A VERSION with
IF_VERSION at 0 is accepted on GET, GET_RANGE, HEAD and DELETE, which then ignore it; a KEY_LEN of 0 outside
LIST and a LEN of 0 in WRITE_RANGE or APPEND are MALFORMED (DESIGN CHOICE, log entry 89: the spec states
neither). -/
def blockMalformed (op : Nat) (b : Block) : Bool :=
  (b.opflags &&& (15 - opflagsOf op)) != 0 ||
  (op != Op.list && b.keyLen == 0) ||
  (if op = Op.get ∨ op = Op.head ∨ op = Op.delete then
      b.len != 0 || b.stamp != 0 || b.offset != 0 || b.aux != 0
    else if op = Op.getRange then
      b.stamp != 0 || b.aux != 0
    else if op = Op.put then b.version != 0 || b.offset != 0 || b.aux != 0
    else if op = Op.putStream then
      b.version != 0 || b.len == 0 || (b.offset == 0 && b.aux == 0)
    else if op = Op.writeRange then b.len == 0 || b.version != 0 || b.stamp != 0 || b.aux != 0
    else if op = Op.append then b.len == 0 || b.version != 0 || b.offset != 0 || b.aux != 0
    else if op = Op.casPut then b.offset != 0 || b.aux != 0
    else if op = Op.discardSecure then
      b.len != 0 || b.version != 0 || b.stamp != 0 || b.offset != 0 || b.aux != 0
    else if op = Op.hold then
      b.len != 0 || b.version != 0 || b.offset != 0 || b.aux == 0 || decide (3 < b.aux) ||
        (b.aux != 3 && b.stamp != 0)
    else if op = Op.list then
      b.len == 0 || decide (65535 < b.len) || b.version != 0 || b.stamp != 0 || b.offset != 0 || b.aux != 0
    else false)

/-- The fields of a request outside the data group that name nothing (Tables 4-14 and 4-16). -/
def mgmtMalformed (op : Nat) (p : List Byte) : Bool :=
  if op = Op.regRead then
    fieldBe p 0 4 % 4 != 0 || fieldBe p 4 2 == 0 || decide (1024 < fieldBe p 4 2)
  else if op = Op.regWrite then
    fieldBe p 0 2 == 0 || decide (256 < fieldBe p 0 2)
  else if op = Op.recordRead then
    fieldBe p 4 2 == 0 || decide (1024 < fieldBe p 4 2)
  else false

/-- A request's MALFORMED tests other than those its own step makes (R129, R141). A numbered SESSION_OPEN
names no phase an open session takes. -/
def reqMalformed (op msgLen : Nat) (p : List Byte) : Bool :=
  op == Op.sessionOpen ||
  (match ownLength op p with
   | some n => n != msgLen
   | none => decide (msgLen < fixedLen op) || (op == Op.settingsWrite && msgLen == 0)) ||
  (if isData op then blockMalformed op (blockOf p) else mgmtMalformed op p)

/-! ### The SKP header's bytes (Table 3-1) -/

def hdrBytes (h : SkpHdr) : List Byte :=
  be 1 h.version.toNat ++ be 1 h.flags.toNat ++ be 2 h.session.toNat ++ be 4 h.seq.toNat ++
    be 4 h.ack.toNat ++ be 2 h.tag.toNat ++ be 1 h.opcode.toNat ++ be 1 h.status.toNat ++
    be 2 h.keySpace.toNat ++ be 2 h.fragIndex.toNat ++ be 2 h.fragCount.toNat ++
    be 2 h.fragLen.toNat ++ be 4 h.msgLen.toNat ++ be 4 h.fragOffset.toNat

/-- UDP payload of a frame: header, payload, tag, pad and balance word (R39, R83). -/
def udpLenOf (fragLen : Nat) (isSealed : Bool) : Nat :=
  let n := 32 + fragLen + (if isSealed then 16 else 0)
  n + n % 2 + 2

/-- Largest FRAG_LEN for a UDP payload of u bytes (R88). -/
def maxFrag (u : Nat) (isSealed : Bool) : Nat :=
  2 * ((u - 2) / 2) - 32 - (if isSealed then 16 else 0)

/-! ### Sequence numbers -/

/-- Numbers of a series on a clear session (R608). -/
def seqMod : Nat := 4294967295

/-- The number after n: on a clear session 0xFFFF_FFFF is followed by 1. -/
def nextSeq (isSealed : Bool) (n : Nat) : Nat := if !isSealed && n == seqMod then 1 else n + 1

/-- m is below n in the session's order. -/
def seqBelow (isSealed : Bool) (m n : Nat) : Bool :=
  if isSealed then decide (m < n)
  else
    let k := (n + seqMod - m) % seqMod
    decide (1 ≤ k ∧ k < 2 ^ 31)

/-- m is n or below n; 0 is below every number. -/
def seqUpTo (isSealed : Bool) (m n : Nat) : Bool :=
  m == 0 || (n != 0 && (m == n || seqBelow isSealed m n))

/-- The higher of two numbers; 0 is below every number. -/
def seqMax (isSealed : Bool) (m n : Nat) : Nat := if seqUpTo isSealed m n then n else m

end Sys2Proof.Machine
end

