-- ==== Sys2Proof/Machine/Flags.lean ====
section
/-!
DEFINITION. The flag computations of the protocol: FLAGS of the messages the drive sends (Table 3-2),
KFLAGS and RFLAGS of a key (Tables 4-8 and 7-5), the index entry's bits (Table 7-4) and the flags of a
LIST entry.
-/
namespace Sys2Proof.Machine

/-- FLAGS of a fragment the drive sends: DIR, SEALED, KEY_PHASE, MORE, DEFERRED, REKEY_DUE. -/
def txFlags (isSealed more deferred rekeyDue : Bool) (epoch : Nat) : Nat :=
  1 + 2 * b2n isSealed + 4 * (if isSealed then epoch % 2 else 0) + 8 * b2n more + 16 * b2n deferred
    + 32 * b2n rekeyDue

/-- Reserved FLAGS bits or MORE, DEFERRED or REKEY_DUE set in a request (R85). -/
def reqFlagsBad (h : SkpHdr) : Bool :=
  (h.flags &&& 0xF8#8) != 0 || (h.session &&& 0xC000#16) != 0

/-- KFLAGS of Table 4-8. -/
def kflags (held paired oneCopy : Bool) : Nat := b2n held + 2 * b2n paired + 4 * b2n oneCopy

/-- RFLAGS of a key record. -/
def rflags (held paired : Bool) : Nat := b2n held + 2 * b2n paired

/-- LEN_CODE of an index entry. -/
def lenCode (length : Nat) : Nat :=
  if length < 8388608 then length else 8388608 + (ceilDiv length 512 - 1) % 8388608

/-- Entry bits [127:112] after a change: EFLAGS of a journal record (Tables 7-4 and 7-6); `one` tells that record
and value lie in one map unit. -/
def eflags (k : KeyEnt) (one : Bool) : Nat :=
  1 + 2 * b2n k.alt + 8 * b2n k.held + 16 * b2n (k.retain != 0) + 32 * b2n k.paired +
    64 * b2n k.ahead + 128 * b2n one + 256 * (k.version % 256)

end Sys2Proof.Machine
end

