-- ==== Sys2Proof/Machine/RegMap.lean ====
section
/-!
DEFINITION. The register tables of the spec as data: for every block of Table 18-1 the registers with
their offsets, and for every field its place, its access type (Table 0-3), its origin (Table 0-4),
its reset value (R6 and the Reset column) and, where the table states one, the range of values it
takes (R554, R598). `F.<REGISTER>_<FIELD>` names each field by the place its table gives it.
-/
namespace Sys2Proof.Machine

/-- A field: the offset of its register within its block, its lowest bit and its width. -/
structure Fld where
  off   : Nat
  lo    : Nat
  width : Nat
  deriving DecidableEq, Repr

/-- The same field in the k-th register of an array of registers. -/
def Fld.at (f : Fld) (k : Nat) : Fld := ⟨f.off + 4 * k, f.lo, f.width⟩

/-- Register access types of Table 0-3. -/
inductive Acc where
  | ro | rw | w1c | wo | rc
  deriving DecidableEq, Repr

/-- Register origins of Table 0-4: settings image, live, hardware. -/
inductive Org where
  | s | l | h
  deriving DecidableEq, Repr

/-- One row of a register table. `lim` is the range of legal values the table states. -/
structure FieldDesc where
  lo    : Nat
  width : Nat
  acc   : Acc
  org   : Org
  reset : Nat
  lim   : Option (Nat × Nat)
  deriving DecidableEq, Repr

/-- One register, or `count` registers of one layout at consecutive words. -/
structure RegDesc where
  off    : Nat
  count  : Nat
  fields : List FieldDesc
  deriving DecidableEq, Repr

/-! Global (Tables 10-6, 11-9, 13-9 to 13-11, 15-11, 15-12). -/

def F.GLB_ID_VER_STEPPING : Fld := ⟨0x0, 0, 8⟩
def F.GLB_ID_VER_FW_MAJOR : Fld := ⟨0x0, 8, 8⟩
def F.GLB_ID_VER_FW_MINOR : Fld := ⟨0x0, 16, 8⟩
def F.GLB_ID_VER_FW_PATCH : Fld := ⟨0x0, 24, 8⟩
def F.GLB_ID_SERIAL_BITS : Fld := ⟨0x4, 0, 32⟩
def F.GLB_ID_OWNER_OWNED : Fld := ⟨0x1C, 0, 1⟩
def F.GLB_START_CTRL_SHUTDOWN : Fld := ⟨0x100, 0, 1⟩
def F.GLB_START_CTRL_CONFIRM : Fld := ⟨0x100, 1, 1⟩
def F.GLB_START_STAT_READY : Fld := ⟨0x104, 0, 1⟩
def F.GLB_START_STAT_CLEAN : Fld := ⟨0x104, 1, 1⟩
def F.GLB_START_STAT_SHUTTING : Fld := ⟨0x104, 2, 1⟩
def F.GLB_START_STAT_SHUT_DONE : Fld := ⟨0x104, 3, 1⟩
def F.GLB_START_STAT_MIGRATING : Fld := ⟨0x104, 4, 1⟩
def F.GLB_START_STAT_RECOVERY : Fld := ⟨0x104, 5, 1⟩
def F.GLB_START_STAT_CAUSE : Fld := ⟨0x104, 8, 3⟩
def F.GLB_START_TIME_MS : Fld := ⟨0x108, 0, 16⟩
def F.GLB_START_COUNT_COUNT : Fld := ⟨0x10C, 0, 32⟩
def F.GLB_BOOT_CTRL_CONFIRM_S : Fld := ⟨0x200, 0, 16⟩
def F.GLB_BOOT_CTRL_SET_GUARD_M : Fld := ⟨0x200, 16, 8⟩
def F.GLB_BOOT_STAT_FW_SLOT : Fld := ⟨0x204, 0, 1⟩
def F.GLB_BOOT_STAT_FW_A : Fld := ⟨0x204, 1, 3⟩
def F.GLB_BOOT_STAT_FW_B : Fld := ⟨0x204, 4, 3⟩
def F.GLB_BOOT_STAT_TRIES : Fld := ⟨0x204, 7, 2⟩
def F.GLB_BOOT_STAT_FELL_BACK : Fld := ⟨0x204, 9, 1⟩
def F.GLB_BOOT_STAT_SET_SLOT : Fld := ⟨0x204, 10, 1⟩
def F.GLB_BOOT_STAT_SET_A : Fld := ⟨0x204, 11, 3⟩
def F.GLB_BOOT_STAT_SET_B : Fld := ⟨0x204, 14, 3⟩
def F.GLB_BOOT_STAT_SEC_COUNT : Fld := ⟨0x204, 17, 7⟩
def F.GLB_UPD_CTRL_RELAY : Fld := ⟨0x208, 0, 1⟩
def F.GLB_UPD_CTRL_ACCEPT_CHAIN : Fld := ⟨0x208, 1, 1⟩
def F.GLB_UPD_CTRL_STAGGER_S : Fld := ⟨0x208, 8, 16⟩
def F.GLB_UPD_STAT_XFER : Fld := ⟨0x20C, 0, 3⟩
def F.GLB_UPD_STAT_FROM_CHAIN : Fld := ⟨0x20C, 3, 1⟩
def F.GLB_UPD_STAT_REASON : Fld := ⟨0x20C, 8, 8⟩
def F.GLB_UPD_BYTES_COUNT : Fld := ⟨0x210, 0, 32⟩
def F.GLB_UPD_REFUSE_HOP : Fld := ⟨0x214, 0, 6⟩
def F.GLB_UPD_REFUSE_REASON : Fld := ⟨0x214, 8, 8⟩
def F.GLB_UPD_REFUSE_VALID : Fld := ⟨0x214, 31, 1⟩
def F.GLB_UPD_WHEN_LO_STAMP : Fld := ⟨0x218, 0, 32⟩
def F.GLB_UPD_WHEN_HI_STAMP : Fld := ⟨0x21C, 0, 32⟩
def F.GLB_SRAM_CE_COUNT : Fld := ⟨0x700, 0, 32⟩
def F.GLB_SRAM_UE_COUNT : Fld := ⟨0x704, 0, 32⟩
def F.GLB_SRAM_LAST_TCAM : Fld := ⟨0x708, 0, 12⟩
def F.GLB_SRAM_LAST_VALID : Fld := ⟨0x708, 31, 1⟩
def F.GLB_JM_STAT_SPARE_LEFT : Fld := ⟨0x710, 0, 20⟩
def F.GLB_JM_WEAR_AVG : Fld := ⟨0x714, 0, 16⟩
def F.GLB_JM_WEAR_MAX : Fld := ⟨0x714, 16, 16⟩
def F.GLB_FRZ_CTRL_AUTO_S : Fld := ⟨0x800, 0, 16⟩
def F.GLB_FRZ_STAT_SWATHS : Fld := ⟨0x804, 0, 16⟩
def F.GLB_FRZ_STAT_NOTIFICATION : Fld := ⟨0x804, 16, 1⟩
def F.GLB_FRZ_STAT_EVENT_RECORDER : Fld := ⟨0x804, 17, 1⟩
def F.GLB_FRZ_INFO_MASTER : Fld := ⟨0x808, 0, 8⟩
def F.GLB_FRZ_INFO_RIGHT : Fld := ⟨0x808, 8, 2⟩
def F.GLB_FRZ_INFO_VALID : Fld := ⟨0x808, 31, 1⟩
def F.GLB_FRZ_ADDR_LO_ADDR : Fld := ⟨0x80C, 0, 32⟩
def F.GLB_FRZ_ADDR_HI_ADDR : Fld := ⟨0x810, 0, 8⟩
def F.GLB_FRZ_PC_PC : Fld := ⟨0x814, 0, 32⟩
def F.GLB_AW_SEL_MASTER : Fld := ⟨0x820, 0, 8⟩
def F.GLB_AW_SEL_WINDOW : Fld := ⟨0x820, 8, 4⟩
def F.GLB_AW_W0_BASE : Fld := ⟨0x824, 0, 28⟩
def F.GLB_AW_W1_LIMIT : Fld := ⟨0x828, 0, 28⟩
def F.GLB_AW_W2_READ : Fld := ⟨0x82C, 0, 1⟩
def F.GLB_AW_W2_WRITE : Fld := ⟨0x82C, 1, 1⟩
def F.GLB_AW_W2_FETCH : Fld := ⟨0x82C, 2, 1⟩
def F.GLB_AW_W2_VALID : Fld := ⟨0x82C, 3, 1⟩
def F.GLB_AW_LOCK_LOCKED : Fld := ⟨0x830, 0, 1⟩
def F.GLB_RST_STAT_ACTIVE : Fld := ⟨0x840, 0, 24⟩
def F.GLB_RST_SEL_FUNCTION : Fld := ⟨0x844, 0, 5⟩
def F.GLB_RST_INFO_COUNT : Fld := ⟨0x848, 0, 16⟩
def F.GLB_RST_INFO_CAUSE : Fld := ⟨0x848, 16, 2⟩
def F.GLB_RST_TIME_US : Fld := ⟨0x84C, 0, 32⟩
def F.GLB_IN_CFG_HA_DEBOUNCE_MS : Fld := ⟨0x900, 0, 8⟩
def F.GLB_IN_CFG_HA_STUCK_S : Fld := ⟨0x900, 8, 12⟩
def F.GLB_IN_CFG_HA_CHAT_MAX : Fld := ⟨0x900, 20, 8⟩
def F.GLB_IN_CFG_HA_INVERT : Fld := ⟨0x900, 28, 1⟩
def F.GLB_IN_CFG_HA_EN : Fld := ⟨0x900, 29, 1⟩
def F.GLB_IN_CFG_HB_DEBOUNCE_MS : Fld := ⟨0x904, 0, 8⟩
def F.GLB_IN_CFG_HB_STUCK_S : Fld := ⟨0x904, 8, 12⟩
def F.GLB_IN_CFG_HB_CHAT_MAX : Fld := ⟨0x904, 20, 8⟩
def F.GLB_IN_CFG_HB_INVERT : Fld := ⟨0x904, 28, 1⟩
def F.GLB_IN_CFG_HB_EN : Fld := ⟨0x904, 29, 1⟩
def F.GLB_IN_CFG_RST_DEBOUNCE_MS : Fld := ⟨0x908, 0, 8⟩
def F.GLB_IN_CFG_RST_STUCK_S : Fld := ⟨0x908, 8, 12⟩
def F.GLB_IN_CFG_RST_CHAT_MAX : Fld := ⟨0x908, 20, 8⟩
def F.GLB_IN_CFG_RST_INVERT : Fld := ⟨0x908, 28, 1⟩
def F.GLB_IN_CFG_RST_EN : Fld := ⟨0x908, 29, 1⟩
def F.GLB_IN_STAT_HA_RAW : Fld := ⟨0x90C, 0, 1⟩
def F.GLB_IN_STAT_HA_ACTIVE : Fld := ⟨0x90C, 1, 1⟩
def F.GLB_IN_STAT_HA_STUCK : Fld := ⟨0x90C, 2, 1⟩
def F.GLB_IN_STAT_HA_SUSP : Fld := ⟨0x90C, 3, 1⟩
def F.GLB_IN_STAT_HB_RAW : Fld := ⟨0x90C, 8, 1⟩
def F.GLB_IN_STAT_HB_ACTIVE : Fld := ⟨0x90C, 9, 1⟩
def F.GLB_IN_STAT_HB_STUCK : Fld := ⟨0x90C, 10, 1⟩
def F.GLB_IN_STAT_HB_SUSP : Fld := ⟨0x90C, 11, 1⟩
def F.GLB_IN_STAT_RST_RAW : Fld := ⟨0x90C, 16, 1⟩
def F.GLB_IN_STAT_RST_ACTIVE : Fld := ⟨0x90C, 17, 1⟩
def F.GLB_IN_STAT_RST_STUCK : Fld := ⟨0x90C, 18, 1⟩
def F.GLB_IN_STAT_RST_SUSP : Fld := ⟨0x90C, 19, 1⟩
def F.GLB_IN_SUSP_HA : Fld := ⟨0x910, 0, 10⟩
def F.GLB_IN_SUSP_HB : Fld := ⟨0x910, 10, 10⟩
def F.GLB_IN_SUSP_RST : Fld := ⟨0x910, 20, 10⟩
def F.GLB_IN_CHG_COUNT : Fld := ⟨0x914, 0, 32⟩
def F.GLB_OUT_FAULT_SET : Fld := ⟨0x920, 0, 1⟩
def F.GLB_OUT_ID_LED : Fld := ⟨0x920, 1, 1⟩
def F.GLB_OUT_CAUSE_START : Fld := ⟨0x920, 2, 1⟩
def F.GLB_OUT_CAUSE_BANK : Fld := ⟨0x920, 3, 1⟩
def F.GLB_OUT_CAUSE_THERM : Fld := ⟨0x920, 4, 1⟩
def F.GLB_OUT_FAULT : Fld := ⟨0x920, 5, 1⟩
def F.GLB_CHAIN_CTRL_EN : Fld := ⟨0xA00, 0, 1⟩
def F.GLB_CHAIN_STAT_UP_PRSNT : Fld := ⟨0xA04, 0, 1⟩
def F.GLB_CHAIN_STAT_DN_PRSNT : Fld := ⟨0xA04, 1, 1⟩
def F.GLB_CHAIN_STAT_UP_LOCK : Fld := ⟨0xA04, 2, 1⟩
def F.GLB_CHAIN_STAT_DN_LOCK : Fld := ⟨0xA04, 3, 1⟩
def F.GLB_CHAIN_CODE_UP_COUNT : Fld := ⟨0xA08, 0, 32⟩
def F.GLB_CHAIN_CODE_DN_COUNT : Fld := ⟨0xA0C, 0, 32⟩
def F.GLB_CHAIN_POS_POS : Fld := ⟨0xA10, 0, 6⟩
def F.GLB_CHAIN_POS_HEAD : Fld := ⟨0xA10, 6, 1⟩
def F.GLB_CHAIN_POS_VALID : Fld := ⟨0xA10, 7, 1⟩
def F.GLB_CHAIN_POS_DOWN : Fld := ⟨0xA10, 8, 6⟩
def F.GLB_CHAIN_INV_SEL_POS : Fld := ⟨0xA14, 0, 6⟩
def F.GLB_CHAIN_INV_W_BITS : Fld := ⟨0xA18, 0, 32⟩

def glbTable0 : List RegDesc := [
  ⟨0x0, 1, [⟨0, 8, .ro, .h, 176, none⟩,
    ⟨8, 8, .ro, .h, 0, none⟩,
    ⟨16, 8, .ro, .h, 0, none⟩,
    ⟨24, 8, .ro, .h, 0, none⟩]⟩,
  ⟨0x4, 6, [⟨0, 32, .ro, .h, 0, none⟩]⟩,
  ⟨0x1C, 1, [⟨0, 1, .ro, .h, 0, none⟩]⟩,
  ⟨0x100, 1, [⟨0, 1, .wo, .l, 0, none⟩,
    ⟨1, 1, .wo, .l, 0, none⟩]⟩,
  ⟨0x104, 1, [⟨0, 1, .ro, .h, 0, none⟩,
    ⟨1, 1, .ro, .h, 0, none⟩,
    ⟨2, 1, .ro, .h, 0, none⟩,
    ⟨3, 1, .ro, .h, 0, none⟩,
    ⟨4, 1, .ro, .h, 0, none⟩,
    ⟨5, 1, .ro, .h, 0, none⟩,
    ⟨8, 3, .ro, .h, 0, none⟩]⟩,
  ⟨0x108, 1, [⟨0, 16, .ro, .h, 0, none⟩]⟩,
  ⟨0x10C, 1, [⟨0, 32, .ro, .h, 0, none⟩]⟩,
  ⟨0x200, 1, [⟨0, 16, .rw, .s, 600, none⟩,
    ⟨16, 8, .rw, .s, 0, none⟩]⟩,
  ⟨0x204, 1, [⟨0, 1, .ro, .h, 0, none⟩,
    ⟨1, 3, .ro, .h, 0, none⟩,
    ⟨4, 3, .ro, .h, 0, none⟩,
    ⟨7, 2, .ro, .h, 0, none⟩,
    ⟨9, 1, .ro, .h, 0, none⟩,
    ⟨10, 1, .ro, .h, 0, none⟩,
    ⟨11, 3, .ro, .h, 0, none⟩,
    ⟨14, 3, .ro, .h, 0, none⟩,
    ⟨17, 7, .ro, .h, 0, none⟩]⟩,
  ⟨0x208, 1, [⟨0, 1, .rw, .s, 1, none⟩,
    ⟨1, 1, .rw, .s, 1, none⟩,
    ⟨8, 16, .rw, .s, 60, none⟩]⟩,
  ⟨0x20C, 1, [⟨0, 3, .ro, .h, 0, none⟩,
    ⟨3, 1, .ro, .h, 0, none⟩,
    ⟨8, 8, .ro, .h, 0, none⟩]⟩,
  ⟨0x210, 1, [⟨0, 32, .ro, .h, 0, none⟩]⟩,
  ⟨0x214, 1, [⟨0, 6, .ro, .h, 0, none⟩,
    ⟨8, 8, .ro, .h, 0, none⟩,
    ⟨31, 1, .w1c, .h, 0, none⟩]⟩,
  ⟨0x218, 1, [⟨0, 32, .ro, .h, 0, none⟩]⟩,
  ⟨0x21C, 1, [⟨0, 32, .ro, .h, 0, none⟩]⟩,
  ⟨0x700, 1, [⟨0, 32, .ro, .h, 0, none⟩]⟩,
  ⟨0x704, 1, [⟨0, 32, .ro, .h, 0, none⟩]⟩,
  ⟨0x708, 1, [⟨0, 12, .ro, .h, 0, none⟩,
    ⟨31, 1, .w1c, .h, 0, none⟩]⟩,
  ⟨0x710, 1, [⟨0, 20, .ro, .h, 0, none⟩]⟩,
  ⟨0x714, 1, [⟨0, 16, .ro, .h, 0, none⟩,
    ⟨16, 16, .ro, .h, 0, none⟩]⟩]

def glbTable1 : List RegDesc := [
  ⟨0x800, 1, [⟨0, 16, .rw, .s, 10, none⟩]⟩,
  ⟨0x804, 1, [⟨0, 16, .ro, .h, 0, none⟩,
    ⟨16, 1, .ro, .h, 0, none⟩,
    ⟨17, 1, .ro, .h, 0, none⟩]⟩,
  ⟨0x808, 1, [⟨0, 8, .ro, .h, 0, none⟩,
    ⟨8, 2, .ro, .h, 0, none⟩,
    ⟨31, 1, .w1c, .h, 0, none⟩]⟩,
  ⟨0x80C, 1, [⟨0, 32, .ro, .h, 0, none⟩]⟩,
  ⟨0x810, 1, [⟨0, 8, .ro, .h, 0, none⟩]⟩,
  ⟨0x814, 1, [⟨0, 32, .ro, .h, 0, none⟩]⟩,
  ⟨0x820, 1, [⟨0, 8, .rw, .l, 0, none⟩,
    ⟨8, 4, .rw, .l, 0, none⟩]⟩,
  ⟨0x824, 1, [⟨0, 28, .ro, .h, 0, none⟩]⟩,
  ⟨0x828, 1, [⟨0, 28, .ro, .h, 0, none⟩]⟩,
  ⟨0x82C, 1, [⟨0, 1, .ro, .h, 0, none⟩,
    ⟨1, 1, .ro, .h, 0, none⟩,
    ⟨2, 1, .ro, .h, 0, none⟩,
    ⟨3, 1, .ro, .h, 0, none⟩]⟩,
  ⟨0x830, 1, [⟨0, 1, .ro, .h, 0, none⟩]⟩,
  ⟨0x840, 1, [⟨0, 24, .ro, .h, 0, none⟩]⟩,
  ⟨0x844, 1, [⟨0, 5, .rw, .l, 0, none⟩]⟩,
  ⟨0x848, 1, [⟨0, 16, .ro, .h, 0, none⟩,
    ⟨16, 2, .ro, .h, 0, none⟩]⟩,
  ⟨0x84C, 1, [⟨0, 32, .ro, .h, 0, none⟩]⟩,
  ⟨0x900, 1, [⟨0, 8, .rw, .s, 20, some (1, 255)⟩,
    ⟨8, 12, .rw, .s, 3600, some (1, 3600)⟩,
    ⟨20, 8, .rw, .s, 20, some (2, 255)⟩,
    ⟨28, 1, .rw, .s, 0, none⟩,
    ⟨29, 1, .rw, .s, 1, none⟩]⟩,
  ⟨0x904, 1, [⟨0, 8, .rw, .s, 20, some (1, 255)⟩,
    ⟨8, 12, .rw, .s, 3600, some (1, 3600)⟩,
    ⟨20, 8, .rw, .s, 20, some (2, 255)⟩,
    ⟨28, 1, .rw, .s, 0, none⟩,
    ⟨29, 1, .rw, .s, 1, none⟩]⟩,
  ⟨0x908, 1, [⟨0, 8, .rw, .s, 20, some (1, 255)⟩,
    ⟨8, 12, .rw, .s, 30, some (1, 3600)⟩,
    ⟨20, 8, .rw, .s, 20, some (2, 255)⟩,
    ⟨28, 1, .rw, .s, 0, none⟩,
    ⟨29, 1, .rw, .s, 1, none⟩]⟩,
  ⟨0x90C, 1, [⟨0, 1, .ro, .h, 0, none⟩,
    ⟨1, 1, .ro, .h, 0, none⟩,
    ⟨2, 1, .ro, .h, 0, none⟩,
    ⟨3, 1, .ro, .h, 0, none⟩,
    ⟨8, 1, .ro, .h, 0, none⟩,
    ⟨9, 1, .ro, .h, 0, none⟩,
    ⟨10, 1, .ro, .h, 0, none⟩,
    ⟨11, 1, .ro, .h, 0, none⟩,
    ⟨16, 1, .ro, .h, 0, none⟩,
    ⟨17, 1, .ro, .h, 0, none⟩,
    ⟨18, 1, .ro, .h, 0, none⟩,
    ⟨19, 1, .ro, .h, 0, none⟩]⟩,
  ⟨0x910, 1, [⟨0, 10, .ro, .h, 0, none⟩,
    ⟨10, 10, .ro, .h, 0, none⟩,
    ⟨20, 10, .ro, .h, 0, none⟩]⟩]

def glbTable2 : List RegDesc := [
  ⟨0x914, 3, [⟨0, 32, .ro, .h, 0, none⟩]⟩,
  ⟨0x920, 1, [⟨0, 1, .rw, .l, 0, none⟩,
    ⟨1, 1, .rw, .l, 0, none⟩,
    ⟨2, 1, .ro, .h, 0, none⟩,
    ⟨3, 1, .ro, .h, 0, none⟩,
    ⟨4, 1, .ro, .h, 0, none⟩,
    ⟨5, 1, .ro, .h, 0, none⟩]⟩,
  ⟨0xA00, 1, [⟨0, 1, .rw, .s, 1, none⟩]⟩,
  ⟨0xA04, 1, [⟨0, 1, .ro, .h, 0, none⟩,
    ⟨1, 1, .ro, .h, 0, none⟩,
    ⟨2, 1, .ro, .h, 0, none⟩,
    ⟨3, 1, .ro, .h, 0, none⟩]⟩,
  ⟨0xA08, 1, [⟨0, 32, .ro, .h, 0, none⟩]⟩,
  ⟨0xA0C, 1, [⟨0, 32, .ro, .h, 0, none⟩]⟩,
  ⟨0xA10, 1, [⟨0, 6, .ro, .h, 0, none⟩,
    ⟨6, 1, .ro, .h, 0, none⟩,
    ⟨7, 1, .ro, .h, 0, none⟩,
    ⟨8, 6, .ro, .h, 0, none⟩]⟩,
  ⟨0xA14, 1, [⟨0, 6, .rw, .l, 0, none⟩]⟩,
  ⟨0xA18, 8, [⟨0, 32, .ro, .h, 0, none⟩]⟩]

/-- Global (Tables 10-6, 11-9, 13-9 to 13-11, 15-11, 15-12). -/
def glbRegs : List RegDesc :=
  glbTable0 ++ glbTable1 ++ glbTable2

/-! Power and clocks (Tables 12-6 to 12-9). -/

def F.PWR_CTRL_HEATH_EN : Fld := ⟨0x0, 0, 1⟩
def F.PWR_CTRL_LIVE_EN : Fld := ⟨0x0, 1, 1⟩
def F.PWR_STAT_ENVELOPE : Fld := ⟨0x4, 0, 2⟩
def F.PWR_STAT_WAIT : Fld := ⟨0x4, 2, 1⟩
def F.PWR_STAT_V12_OK : Fld := ⟨0x4, 3, 1⟩
def F.PWR_STAT_PD_OK : Fld := ⟨0x4, 4, 1⟩
def F.PWR_STAT_CLASS : Fld := ⟨0x4, 5, 4⟩
def F.PWR_STAT_LLDP : Fld := ⟨0x4, 9, 1⟩
def F.PWR_BUDGET_MW : Fld := ⟨0x8, 0, 17⟩
def F.PWR_DRAW_MW : Fld := ⟨0xC, 0, 17⟩
def F.PWR_LLDP_REQ_MW : Fld := ⟨0x10, 0, 17⟩
def F.PWR_ALLOC_MW : Fld := ⟨0x14, 0, 17⟩
def F.PWR_TOK_FIX_MEADOW_MW : Fld := ⟨0x20, 0, 16⟩
def F.PWR_TOK_FIX_HEATH_MW : Fld := ⟨0x20, 16, 16⟩
def F.PWR_TOK_CTRL_AGE_MS : Fld := ⟨0x24, 0, 8⟩
def F.PWR_TOK_CTRL_LOOP_EN : Fld := ⟨0x24, 8, 1⟩
def F.PWR_TOK_STAT_POOL : Fld := ⟨0x28, 0, 12⟩
def F.PWR_TOK_STAT_EFFECTIVE : Fld := ⟨0x28, 12, 12⟩
def F.PWR_TOK_STAT_LEVEL : Fld := ⟨0x28, 24, 4⟩
def F.PWR_TOK_STAT_BY_POWER : Fld := ⟨0x28, 28, 1⟩
def F.PWR_TOK_STAT_BY_THERM : Fld := ⟨0x28, 29, 1⟩
def F.PWR_DROOP_TRIP_PCT : Fld := ⟨0x30, 0, 4⟩
def F.PWR_DROOP_HYST_PCT : Fld := ⟨0x30, 4, 4⟩
def F.PWR_DROOP_SEL_ISLAND : Fld := ⟨0x34, 0, 7⟩
def F.PWR_DROOP_CNT_COUNT : Fld := ⟨0x38, 0, 32⟩
def F.PWR_THERM_SEL_SENSOR : Fld := ⟨0x40, 0, 6⟩
def F.PWR_THERM_VAL_NOW : Fld := ⟨0x44, 0, 16⟩
def F.PWR_THERM_VAL_MAX : Fld := ⟨0x44, 16, 16⟩
def F.PWR_THERM_LIM_CTRL : Fld := ⟨0x48, 0, 8⟩
def F.PWR_THERM_LIM_NAND : Fld := ⟨0x48, 8, 8⟩
def F.PWR_THERM_LIM_DRAM : Fld := ⟨0x48, 16, 8⟩
def F.PWR_THERM_LIM_BANK : Fld := ⟨0x48, 24, 8⟩
def F.PWR_HOLD_ENERGY_MJ : Fld := ⟨0x50, 0, 14⟩
def F.PWR_HOLD_UNITS : Fld := ⟨0x50, 14, 11⟩
def F.PWR_HOLD_HEALTH : Fld := ⟨0x50, 25, 2⟩
def F.PWR_HOLD_CTRL_TEST_H : Fld := ⟨0x54, 0, 8⟩
def F.PWR_HOLD_CTRL_TEST_NOW : Fld := ⟨0x54, 8, 1⟩
def F.PWR_PF_COUNT : Fld := ⟨0x58, 0, 16⟩
def F.PWR_PF_CAUSE : Fld := ⟨0x58, 16, 3⟩

def pwrTable0 : List RegDesc := [
  ⟨0x0, 1, [⟨0, 1, .rw, .s, 1, none⟩,
    ⟨1, 1, .rw, .s, 1, none⟩]⟩,
  ⟨0x4, 1, [⟨0, 2, .ro, .h, 0, none⟩,
    ⟨2, 1, .ro, .h, 0, none⟩,
    ⟨3, 1, .ro, .h, 0, none⟩,
    ⟨4, 1, .ro, .h, 0, none⟩,
    ⟨5, 4, .ro, .h, 0, none⟩,
    ⟨9, 1, .ro, .h, 0, none⟩]⟩,
  ⟨0x8, 1, [⟨0, 17, .ro, .h, 0, none⟩]⟩,
  ⟨0xC, 1, [⟨0, 17, .ro, .h, 0, none⟩]⟩,
  ⟨0x10, 1, [⟨0, 17, .rw, .s, 71300, some (51000, 71300)⟩]⟩,
  ⟨0x14, 1, [⟨0, 17, .ro, .h, 0, none⟩]⟩,
  ⟨0x20, 1, [⟨0, 16, .rw, .s, 59400, none⟩,
    ⟨16, 16, .rw, .s, 41700, none⟩]⟩,
  ⟨0x24, 1, [⟨0, 8, .rw, .s, 20, some (1, 255)⟩,
    ⟨8, 1, .rw, .s, 1, none⟩]⟩,
  ⟨0x28, 1, [⟨0, 12, .ro, .h, 0, none⟩,
    ⟨12, 12, .ro, .h, 0, none⟩,
    ⟨24, 4, .ro, .h, 0, none⟩,
    ⟨28, 1, .ro, .h, 0, none⟩,
    ⟨29, 1, .ro, .h, 0, none⟩]⟩,
  ⟨0x30, 1, [⟨0, 4, .rw, .s, 5, some (2, 10)⟩,
    ⟨4, 4, .rw, .s, 2, some (1, 9)⟩]⟩,
  ⟨0x34, 1, [⟨0, 7, .rw, .l, 0, none⟩]⟩,
  ⟨0x38, 1, [⟨0, 32, .ro, .h, 0, none⟩]⟩,
  ⟨0x40, 1, [⟨0, 6, .rw, .l, 0, none⟩]⟩,
  ⟨0x44, 1, [⟨0, 16, .ro, .h, 0, none⟩,
    ⟨16, 16, .ro, .h, 0, none⟩]⟩,
  ⟨0x48, 1, [⟨0, 8, .rw, .s, 105, some (85, 105)⟩,
    ⟨8, 8, .rw, .s, 80, some (60, 80)⟩,
    ⟨16, 8, .rw, .s, 95, some (75, 95)⟩,
    ⟨24, 8, .rw, .s, 75, some (55, 75)⟩]⟩,
  ⟨0x50, 1, [⟨0, 14, .ro, .h, 0, none⟩,
    ⟨14, 11, .ro, .h, 0, none⟩,
    ⟨25, 2, .ro, .h, 0, none⟩]⟩,
  ⟨0x54, 1, [⟨0, 8, .rw, .s, 24, some (0, 168)⟩,
    ⟨8, 1, .wo, .l, 0, none⟩]⟩,
  ⟨0x58, 1, [⟨0, 16, .ro, .h, 0, none⟩,
    ⟨16, 3, .ro, .h, 0, none⟩]⟩]

/-- Power and clocks (Tables 12-6 to 12-9). -/
def pwrRegs : List RegDesc :=
  pwrTable0

/-! Interrupt controller (Tables 11-10, 11-11). -/

def F.IRQ_CTRL_STORM_MAX : Fld := ⟨0x0, 0, 16⟩
def F.IRQ_T0_THRESH_THRESH : Fld := ⟨0x10, 0, 4⟩
def F.IRQ_T0_CLAIM_ID : Fld := ⟨0x14, 0, 10⟩
def F.IRQ_T0_CLAIM_EVENTS : Fld := ⟨0x14, 16, 8⟩
def F.IRQ_T0_CLAIM_PRIO : Fld := ⟨0x14, 24, 4⟩
def F.IRQ_T0_CLAIM_VALID : Fld := ⟨0x14, 31, 1⟩
def F.IRQ_T0_DONE_ID : Fld := ⟨0x18, 0, 10⟩
def F.IRQ_T17_THRESH_THRESH : Fld := ⟨0x20, 0, 4⟩
def F.IRQ_T17_CLAIM_ID : Fld := ⟨0x24, 0, 10⟩
def F.IRQ_T17_CLAIM_EVENTS : Fld := ⟨0x24, 16, 8⟩
def F.IRQ_T17_CLAIM_PRIO : Fld := ⟨0x24, 24, 4⟩
def F.IRQ_T17_CLAIM_VALID : Fld := ⟨0x24, 31, 1⟩
def F.IRQ_T17_DONE_ID : Fld := ⟨0x28, 0, 10⟩
def F.IRQ_NTF_CTRL_SID : Fld := ⟨0x40, 0, 14⟩
def F.IRQ_NTF_CTRL_EN : Fld := ⟨0x40, 14, 1⟩
def F.IRQ_NTF_CTRL_DONE_S : Fld := ⟨0x40, 16, 8⟩
def F.IRQ_NTF_CTRL_MAX_OUT : Fld := ⟨0x40, 24, 8⟩
def F.IRQ_NTF_STAT_SID : Fld := ⟨0x44, 0, 14⟩
def F.IRQ_NTF_STAT_VALID : Fld := ⟨0x44, 14, 1⟩
def F.IRQ_NTF_STAT_OUT : Fld := ⟨0x44, 16, 7⟩
def F.IRQ_NTF_SW_SET_BITS : Fld := ⟨0x48, 0, 32⟩
def F.IRQ_NTF_SW_CLR_BITS : Fld := ⟨0x50, 0, 32⟩
def F.IRQ_EVT_BITS : Fld := ⟨0x80, 0, 32⟩
def F.IRQ_PEND_BITS : Fld := ⟨0xA0, 0, 32⟩
def F.IRQ_SERV_BITS : Fld := ⟨0xC0, 0, 32⟩
def F.IRQ_NTF_SENT_COUNT : Fld := ⟨0xE0, 0, 32⟩
def F.IRQ_NTF_TIMEOUT_COUNT : Fld := ⟨0xE4, 0, 32⟩
def F.IRQ_STORM_COUNT_COUNT : Fld := ⟨0xE8, 0, 32⟩
def F.IRQ_DONE_STRAY_COUNT : Fld := ⟨0xEC, 0, 32⟩
def F.IRQ_P0_SRC_PRIO : Fld := ⟨0x100, 0, 4⟩
def F.IRQ_P0_SRC_TARGET : Fld := ⟨0x100, 4, 5⟩
def F.IRQ_P0_SRC_EVENTS : Fld := ⟨0x100, 16, 8⟩
def F.IRQ_P0_SRC_SIGNAL : Fld := ⟨0x100, 24, 1⟩
def F.IRQ_P0_SRC_PENDING : Fld := ⟨0x100, 25, 1⟩
def F.IRQ_P0_SRC_SERVICE : Fld := ⟨0x100, 26, 1⟩
def F.IRQ_P0_SRC_LATCH : Fld := ⟨0x100, 27, 1⟩
def F.IRQ_P0_SRC_STORM : Fld := ⟨0x100, 28, 1⟩
def F.IRQ_P17_SRC_PRIO : Fld := ⟨0x200, 0, 4⟩
def F.IRQ_P17_SRC_TARGET : Fld := ⟨0x200, 4, 5⟩
def F.IRQ_P17_SRC_EVENTS : Fld := ⟨0x200, 16, 8⟩
def F.IRQ_P17_SRC_SIGNAL : Fld := ⟨0x200, 24, 1⟩
def F.IRQ_P17_SRC_PENDING : Fld := ⟨0x200, 25, 1⟩
def F.IRQ_P17_SRC_SERVICE : Fld := ⟨0x200, 26, 1⟩
def F.IRQ_P17_SRC_LATCH : Fld := ⟨0x200, 27, 1⟩
def F.IRQ_P17_SRC_STORM : Fld := ⟨0x200, 28, 1⟩
def F.IRQ_SRC_PRIO : Fld := ⟨0x400, 0, 4⟩
def F.IRQ_SRC_TARGET : Fld := ⟨0x400, 4, 5⟩
def F.IRQ_SRC_EVENTS : Fld := ⟨0x400, 16, 8⟩
def F.IRQ_SRC_SIGNAL : Fld := ⟨0x400, 24, 1⟩
def F.IRQ_SRC_PENDING : Fld := ⟨0x400, 25, 1⟩
def F.IRQ_SRC_SERVICE : Fld := ⟨0x400, 26, 1⟩
def F.IRQ_SRC_LATCH : Fld := ⟨0x400, 27, 1⟩
def F.IRQ_SRC_STORM : Fld := ⟨0x400, 28, 1⟩

def irqTable0 : List RegDesc := [
  ⟨0x0, 1, [⟨0, 16, .rw, .s, 1000, none⟩]⟩,
  ⟨0x10, 1, [⟨0, 4, .rw, .l, 0, none⟩]⟩,
  ⟨0x14, 1, [⟨0, 10, .rc, .h, 0, none⟩,
    ⟨16, 8, .rc, .h, 0, none⟩,
    ⟨24, 4, .rc, .h, 0, none⟩,
    ⟨31, 1, .rc, .h, 0, none⟩]⟩,
  ⟨0x18, 1, [⟨0, 10, .wo, .l, 0, none⟩]⟩,
  ⟨0x20, 1, [⟨0, 4, .rw, .l, 0, none⟩]⟩,
  ⟨0x24, 1, [⟨0, 10, .rc, .h, 0, none⟩,
    ⟨16, 8, .rc, .h, 0, none⟩,
    ⟨24, 4, .rc, .h, 0, none⟩,
    ⟨31, 1, .rc, .h, 0, none⟩]⟩,
  ⟨0x28, 1, [⟨0, 10, .wo, .l, 0, none⟩]⟩,
  ⟨0x40, 1, [⟨0, 14, .rw, .l, 0, none⟩,
    ⟨14, 1, .rw, .s, 1, none⟩,
    ⟨16, 8, .rw, .s, 30, some (1, 255)⟩,
    ⟨24, 8, .rw, .s, 16, some (1, 64)⟩]⟩,
  ⟨0x44, 1, [⟨0, 14, .ro, .h, 0, none⟩,
    ⟨14, 1, .ro, .h, 0, none⟩,
    ⟨16, 7, .ro, .h, 0, none⟩]⟩,
  ⟨0x48, 2, [⟨0, 32, .wo, .l, 0, none⟩]⟩,
  ⟨0x50, 2, [⟨0, 32, .wo, .l, 0, none⟩]⟩,
  ⟨0x80, 8, [⟨0, 32, .w1c, .h, 0, none⟩]⟩,
  ⟨0xA0, 8, [⟨0, 32, .ro, .h, 0, none⟩]⟩,
  ⟨0xC0, 8, [⟨0, 32, .ro, .h, 0, none⟩]⟩,
  ⟨0xE0, 1, [⟨0, 32, .ro, .h, 0, none⟩]⟩,
  ⟨0xE4, 1, [⟨0, 32, .ro, .h, 0, none⟩]⟩,
  ⟨0xE8, 1, [⟨0, 32, .ro, .h, 0, none⟩]⟩,
  ⟨0xEC, 1, [⟨0, 32, .ro, .h, 0, none⟩]⟩,
  ⟨0x100, 64, [⟨0, 4, .rw, .l, 0, none⟩,
    ⟨4, 5, .rw, .s, 0, none⟩,
    ⟨16, 8, .ro, .h, 0, none⟩,
    ⟨24, 1, .ro, .h, 0, none⟩,
    ⟨25, 1, .ro, .h, 0, none⟩,
    ⟨26, 1, .ro, .h, 0, none⟩,
    ⟨27, 1, .ro, .h, 0, none⟩,
    ⟨28, 1, .w1c, .h, 0, none⟩]⟩,
  ⟨0x200, 64, [⟨0, 4, .rw, .l, 0, none⟩,
    ⟨4, 5, .rw, .s, 0, none⟩,
    ⟨16, 8, .ro, .h, 0, none⟩,
    ⟨24, 1, .ro, .h, 0, none⟩,
    ⟨25, 1, .ro, .h, 0, none⟩,
    ⟨26, 1, .ro, .h, 0, none⟩,
    ⟨27, 1, .ro, .h, 0, none⟩,
    ⟨28, 1, .w1c, .h, 0, none⟩]⟩]

def irqTable1 : List RegDesc := [
  ⟨0x400, 256, [⟨0, 4, .rw, .l, 0, none⟩,
    ⟨4, 5, .rw, .s, 0, none⟩,
    ⟨16, 8, .ro, .h, 0, none⟩,
    ⟨24, 1, .ro, .h, 0, none⟩,
    ⟨25, 1, .ro, .h, 0, none⟩,
    ⟨26, 1, .ro, .h, 0, none⟩,
    ⟨27, 1, .ro, .h, 0, none⟩,
    ⟨28, 1, .w1c, .h, 0, none⟩]⟩]

/-- Interrupt controller (Tables 11-10, 11-11). -/
def irqRegs : List RegDesc :=
  irqTable0 ++ irqTable1

/-! Calendar and recorder (Tables 14-7, 14-8). -/

def F.CAL_CTRL_SET_MAX_S : Fld := ⟨0x0, 0, 16⟩
def F.CAL_CTRL_MAX_UNCERT_S : Fld := ⟨0x0, 16, 16⟩
def F.CAL_STAT_TRUST : Fld := ⟨0x4, 0, 2⟩
def F.CAL_STAT_VALID : Fld := ⟨0x4, 2, 1⟩
def F.CAL_STAT_CELL_LOW : Fld := ⟨0x4, 3, 1⟩
def F.CAL_STAT_SLEWING : Fld := ⟨0x4, 4, 1⟩
def F.CAL_NOW_LO_STAMP : Fld := ⟨0x8, 0, 32⟩
def F.CAL_NOW_HI_STAMP : Fld := ⟨0xC, 0, 32⟩
def F.CAL_UNCERT_MS : Fld := ⟨0x10, 0, 32⟩
def F.CAL_CELL_DAYS : Fld := ⟨0x14, 0, 8⟩
def F.CAL_PTP_CTRL_EN : Fld := ⟨0x20, 0, 1⟩
def F.CAL_PTP_CTRL_PORTS : Fld := ⟨0x20, 1, 3⟩
def F.CAL_PTP_CTRL_DOMAIN : Fld := ⟨0x20, 4, 8⟩
def F.CAL_PTP_CTRL_LOSS_S : Fld := ⟨0x20, 12, 8⟩
def F.CAL_PTP_STAT_STATE : Fld := ⟨0x24, 0, 2⟩
def F.CAL_PTP_STAT_PORT : Fld := ⟨0x24, 2, 2⟩
def F.CAL_PTP_STAT_UTC_OFFSET : Fld := ⟨0x24, 4, 16⟩
def F.CAL_PTP_OFFSET_NS : Fld := ⟨0x28, 0, 32⟩
def F.CAL_PTP_GM_WORD : Fld := ⟨0x30, 0, 32⟩
def F.EVR_CTRL_INTERVAL_S : Fld := ⟨0x100, 0, 17⟩
def F.EVR_CTRL_CLOSE_NOW : Fld := ⟨0x100, 17, 1⟩
def F.EVR_CTRL_IMM_SEV : Fld := ⟨0x100, 18, 3⟩
def F.EVR_STAT_STORED : Fld := ⟨0x104, 0, 20⟩
def F.EVR_STAT_FULL : Fld := ⟨0x104, 20, 1⟩
def F.EVR_STAT_ACCUM : Fld := ⟨0x104, 21, 11⟩
def F.EVR_NEXT_INDEX : Fld := ⟨0x108, 0, 32⟩
def F.EVR_OLDEST_INDEX : Fld := ⟨0x10C, 0, 32⟩
def F.EVR_LOST_COUNT : Fld := ⟨0x120, 0, 32⟩
def F.EVR_OVERWRITE_COUNT : Fld := ⟨0x124, 0, 32⟩
def F.EVR_DISCARD_COUNT : Fld := ⟨0x128, 0, 32⟩
def F.EVR_CRC_BAD_COUNT : Fld := ⟨0x12C, 0, 32⟩
def F.EVR_REPEAT_COUNT : Fld := ⟨0x130, 0, 32⟩

def calTable0 : List RegDesc := [
  ⟨0x0, 1, [⟨0, 16, .rw, .s, 300, none⟩,
    ⟨16, 16, .rw, .s, 3600, some (1, 65535)⟩]⟩,
  ⟨0x4, 1, [⟨0, 2, .ro, .h, 0, none⟩,
    ⟨2, 1, .ro, .h, 0, none⟩,
    ⟨3, 1, .ro, .h, 0, none⟩,
    ⟨4, 1, .ro, .h, 0, none⟩]⟩,
  ⟨0x8, 1, [⟨0, 32, .ro, .h, 0, none⟩]⟩,
  ⟨0xC, 1, [⟨0, 32, .ro, .h, 0, none⟩]⟩,
  ⟨0x10, 1, [⟨0, 32, .ro, .h, 0, none⟩]⟩,
  ⟨0x14, 1, [⟨0, 8, .ro, .h, 0, none⟩]⟩,
  ⟨0x20, 1, [⟨0, 1, .rw, .s, 1, none⟩,
    ⟨1, 3, .rw, .s, 7, none⟩,
    ⟨4, 8, .rw, .s, 0, some (0, 127)⟩,
    ⟨12, 8, .rw, .s, 10, some (2, 255)⟩]⟩,
  ⟨0x24, 1, [⟨0, 2, .ro, .h, 0, none⟩,
    ⟨2, 2, .ro, .h, 0, none⟩,
    ⟨4, 16, .ro, .h, 0, none⟩]⟩,
  ⟨0x28, 1, [⟨0, 32, .ro, .h, 0, none⟩]⟩,
  ⟨0x30, 8, [⟨0, 32, .rw, .s, 0, none⟩]⟩,
  ⟨0x100, 1, [⟨0, 17, .rw, .s, 3600, some (60, 86400)⟩,
    ⟨17, 1, .wo, .l, 0, none⟩,
    ⟨18, 3, .rw, .s, 2, some (2, 4)⟩]⟩,
  ⟨0x104, 1, [⟨0, 20, .ro, .h, 0, none⟩,
    ⟨20, 1, .ro, .h, 0, none⟩,
    ⟨21, 11, .ro, .h, 0, none⟩]⟩,
  ⟨0x108, 1, [⟨0, 32, .ro, .h, 0, none⟩]⟩,
  ⟨0x10C, 1, [⟨0, 32, .ro, .h, 0, none⟩]⟩,
  ⟨0x120, 1, [⟨0, 32, .ro, .h, 0, none⟩]⟩,
  ⟨0x124, 1, [⟨0, 32, .ro, .h, 0, none⟩]⟩,
  ⟨0x128, 1, [⟨0, 32, .ro, .h, 0, none⟩]⟩,
  ⟨0x12C, 1, [⟨0, 32, .ro, .h, 0, none⟩]⟩,
  ⟨0x130, 1, [⟨0, 32, .ro, .h, 0, none⟩]⟩]

/-- Calendar and recorder (Tables 14-7, 14-8). -/
def calRegs : List RegDesc :=
  calTable0

/-! Host port (Tables 2-7 to 2-20, 16-6). -/

def F.PRT_CTRL_ENABLE : Fld := ⟨0x0, 0, 1⟩
def F.PRT_CTRL_SPEED : Fld := ⟨0x0, 1, 3⟩
def F.PRT_CTRL_STEP_EN : Fld := ⟨0x0, 4, 1⟩
def F.PRT_CTRL_EEE_EN : Fld := ⟨0x0, 5, 1⟩
def F.PRT_CTRL_FLOWCTL : Fld := ⟨0x0, 6, 2⟩
def F.PRT_CTRL_LOOP : Fld := ⟨0x0, 8, 2⟩
def F.PRT_STATUS_LINK : Fld := ⟨0x4, 0, 1⟩
def F.PRT_STATUS_RATE : Fld := ⟨0x4, 1, 3⟩
def F.PRT_STATUS_STEPPING : Fld := ⟨0x4, 4, 1⟩
def F.PRT_STATUS_LPI : Fld := ⟨0x4, 5, 1⟩
def F.PRT_STATUS_PAUSED : Fld := ⟨0x4, 6, 1⟩
def F.PRT_STATUS_PWD_HOLDOFF : Fld := ⟨0x4, 7, 1⟩
def F.PRT_STATUS_PFC_PAUSED : Fld := ⟨0x4, 8, 8⟩
def F.PRT_FRAME_MAXFRM : Fld := ⟨0x8, 0, 14⟩
def F.PRT_FRAME_DEF_VID : Fld := ⟨0x8, 16, 12⟩
def F.PRT_FRAME_DEF_PCP : Fld := ⟨0x8, 28, 3⟩
def F.PRT_FRAME_TAG_REQ : Fld := ⟨0x8, 31, 1⟩
def F.PRT_PCP_MAP_CLASS : Fld := ⟨0xC, 0, 24⟩
def F.PRT_IP_IPV4_EN : Fld := ⟨0x10, 0, 1⟩
def F.PRT_IP_IPV6_EN : Fld := ⟨0x10, 1, 1⟩
def F.PRT_IP_UDP0_OK : Fld := ⟨0x10, 2, 1⟩
def F.PRT_IP_TTL : Fld := ⟨0x10, 8, 8⟩
def F.PRT_IPV4_ADDR_ADDR : Fld := ⟨0x14, 0, 32⟩
def F.PRT_IPV6_G_ADDR : Fld := ⟨0x18, 0, 32⟩
def F.PRT_MAC_LO_ADDR : Fld := ⟨0x28, 0, 32⟩
def F.PRT_MAC_HI_ADDR : Fld := ⟨0x2C, 0, 16⟩
def F.PRT_POOL_XOFF : Fld := ⟨0x30, 0, 16⟩
def F.PRT_POOL_XON : Fld := ⟨0x30, 16, 16⟩
def F.PRT_POOL_FREE_FREE : Fld := ⟨0x34, 0, 16⟩
def F.PRT_POOL_FREE_LOW : Fld := ⟨0x34, 16, 16⟩
def F.PRT_PWD_TIME : Fld := ⟨0x40, 0, 16⟩
def F.PRT_PWD_HOLDOFF : Fld := ⟨0x40, 16, 16⟩
def F.PRT_CT_CT_BASE : Fld := ⟨0x44, 0, 3⟩
def F.PRT_CT_DECAY : Fld := ⟨0x44, 16, 16⟩
def F.PRT_CT_LEVEL_LEVEL : Fld := ⟨0x48, 0, 24⟩
def F.PRT_STEP_DOWN_PCT : Fld := ⟨0x4C, 0, 8⟩
def F.PRT_STEP_DWELL : Fld := ⟨0x4C, 8, 8⟩
def F.PRT_STEP_UP_PCT : Fld := ⟨0x4C, 16, 8⟩
def F.PRT_STEP_LPI_IDLE : Fld := ⟨0x4C, 24, 8⟩
def F.PRT_GCL_CTRL_GATE_EN : Fld := ⟨0x80, 0, 1⟩
def F.PRT_GCL_CTRL_SWAP_REQ : Fld := ⟨0x80, 1, 1⟩
def F.PRT_GCL_CTRL_PENDING : Fld := ⟨0x80, 2, 1⟩
def F.PRT_GCL_CTRL_GCL_ERR : Fld := ⟨0x80, 3, 1⟩
def F.PRT_GCL_CTRL_ADMIN_LEN : Fld := ⟨0x80, 4, 9⟩
def F.PRT_GCL_CYCLE_NS : Fld := ⟨0x84, 0, 30⟩
def F.PRT_GCL_BASE_SEC_SEC : Fld := ⟨0x88, 0, 32⟩
def F.PRT_GCL_BASE_NS_NS : Fld := ⟨0x8C, 0, 32⟩
def F.PRT_GCL_ADDR_ADDR : Fld := ⟨0x90, 0, 9⟩
def F.PRT_GCL_DATA_DATA : Fld := ⟨0x94, 0, 32⟩
def F.PRT_PTP_LAT_RX_LAT : Fld := ⟨0xA0, 0, 16⟩
def F.PRT_PTP_LAT_TX_LAT : Fld := ⟨0xA0, 16, 16⟩
def F.PRT_PTP_NS_NS : Fld := ⟨0xB0, 0, 32⟩
def F.PRT_PTP_SEC_LO_SEC : Fld := ⟨0xB4, 0, 32⟩
def F.PRT_PTP_SEC_HI_SEC : Fld := ⟨0xB8, 0, 16⟩
def F.PRT_LBT_CTRL_GO : Fld := ⟨0xC0, 0, 1⟩
def F.PRT_LBT_CTRL_FRAMES : Fld := ⟨0xC0, 1, 16⟩
def F.PRT_LBT_CTRL_SIZE : Fld := ⟨0xC0, 17, 14⟩
def F.PRT_LBT_LIMIT_LIMIT_S : Fld := ⟨0xC4, 0, 8⟩
def F.PRT_LBT_STAT_SENT : Fld := ⟨0xC8, 0, 16⟩
def F.PRT_LBT_STAT_RECEIVED : Fld := ⟨0xC8, 16, 16⟩
def F.PRT_LBT_ERR_BAD : Fld := ⟨0xCC, 0, 16⟩
def F.PRT_LBT_ERR_DONE : Fld := ⟨0xCC, 16, 1⟩
def F.PRT_LBT_ERR_PASS : Fld := ⟨0xCC, 17, 1⟩
def F.PRT_CNT_COUNT : Fld := ⟨0x400, 0, 32⟩
def F.PRT_CNT_HALF_HALF : Fld := ⟨0x480, 0, 32⟩
def F.PRT_CNT_HALF_EN_EN : Fld := ⟨0x484, 0, 32⟩

def prtTable0 : List RegDesc := [
  ⟨0x0, 1, [⟨0, 1, .rw, .l, 1, none⟩,
    ⟨1, 3, .rw, .s, 0, some (0, 4)⟩,
    ⟨4, 1, .rw, .s, 0, none⟩,
    ⟨5, 1, .rw, .s, 0, none⟩,
    ⟨6, 2, .rw, .s, 0, some (0, 2)⟩,
    ⟨8, 2, .rw, .l, 0, some (0, 2)⟩]⟩,
  ⟨0x4, 1, [⟨0, 1, .ro, .h, 0, none⟩,
    ⟨1, 3, .ro, .h, 0, none⟩,
    ⟨4, 1, .ro, .h, 0, none⟩,
    ⟨5, 1, .ro, .h, 0, none⟩,
    ⟨6, 1, .ro, .h, 0, none⟩,
    ⟨7, 1, .ro, .h, 0, none⟩,
    ⟨8, 8, .ro, .h, 0, none⟩]⟩,
  ⟨0x8, 1, [⟨0, 14, .rw, .s, 9216, some (1518, 9216)⟩,
    ⟨16, 12, .rw, .s, 1, none⟩,
    ⟨28, 3, .rw, .s, 0, none⟩,
    ⟨31, 1, .rw, .s, 0, none⟩]⟩,
  ⟨0xC, 1, [⟨0, 24, .rw, .s, 16434824, none⟩]⟩,
  ⟨0x10, 1, [⟨0, 1, .rw, .s, 1, none⟩,
    ⟨1, 1, .rw, .s, 1, none⟩,
    ⟨2, 1, .rw, .s, 0, none⟩,
    ⟨8, 8, .rw, .s, 64, none⟩]⟩,
  ⟨0x14, 1, [⟨0, 32, .rw, .s, 0, none⟩]⟩,
  ⟨0x18, 4, [⟨0, 32, .rw, .s, 0, none⟩]⟩,
  ⟨0x28, 1, [⟨0, 32, .ro, .h, 0, none⟩]⟩,
  ⟨0x2C, 1, [⟨0, 16, .ro, .h, 0, none⟩]⟩,
  ⟨0x30, 1, [⟨0, 16, .rw, .s, 2048, none⟩,
    ⟨16, 16, .rw, .s, 3072, none⟩]⟩,
  ⟨0x34, 1, [⟨0, 16, .ro, .h, 32256, none⟩,
    ⟨16, 16, .rc, .h, 32256, none⟩]⟩,
  ⟨0x40, 1, [⟨0, 16, .rw, .s, 100, some (0, 10000)⟩,
    ⟨16, 16, .rw, .s, 1000, some (1, 60000)⟩]⟩,
  ⟨0x44, 1, [⟨0, 3, .rw, .s, 0, some (0, 5)⟩,
    ⟨16, 16, .rw, .s, 4096, none⟩]⟩,
  ⟨0x48, 1, [⟨0, 24, .ro, .h, 0, none⟩]⟩,
  ⟨0x4C, 1, [⟨0, 8, .rw, .s, 20, none⟩,
    ⟨8, 8, .rw, .s, 10, none⟩,
    ⟨16, 8, .rw, .s, 60, none⟩,
    ⟨24, 8, .rw, .s, 10, none⟩]⟩,
  ⟨0x80, 1, [⟨0, 1, .rw, .l, 0, none⟩,
    ⟨1, 1, .wo, .l, 0, none⟩,
    ⟨2, 1, .ro, .h, 0, none⟩,
    ⟨3, 1, .w1c, .h, 0, none⟩,
    ⟨4, 9, .rw, .l, 1, some (1, 256)⟩]⟩,
  ⟨0x84, 1, [⟨0, 30, .rw, .l, 1000000, none⟩]⟩,
  ⟨0x88, 1, [⟨0, 32, .rw, .l, 0, none⟩]⟩,
  ⟨0x8C, 1, [⟨0, 32, .rw, .l, 0, none⟩]⟩,
  ⟨0x90, 1, [⟨0, 9, .rw, .l, 0, none⟩]⟩]

def prtTable1 : List RegDesc := [
  ⟨0x94, 1, [⟨0, 32, .rw, .l, 0, none⟩]⟩,
  ⟨0xA0, 1, [⟨0, 16, .rw, .s, 0, none⟩,
    ⟨16, 16, .rw, .s, 0, none⟩]⟩,
  ⟨0xB0, 1, [⟨0, 32, .ro, .h, 0, none⟩]⟩,
  ⟨0xB4, 1, [⟨0, 32, .ro, .h, 0, none⟩]⟩,
  ⟨0xB8, 1, [⟨0, 16, .ro, .h, 0, none⟩]⟩,
  ⟨0xC0, 1, [⟨0, 1, .wo, .l, 0, none⟩,
    ⟨1, 16, .rw, .l, 1000, some (1, 65535)⟩,
    ⟨17, 14, .rw, .l, 1518, some (64, 9216)⟩]⟩,
  ⟨0xC4, 1, [⟨0, 8, .rw, .s, 60, some (1, 255)⟩]⟩,
  ⟨0xC8, 1, [⟨0, 16, .ro, .h, 0, none⟩,
    ⟨16, 16, .ro, .h, 0, none⟩]⟩,
  ⟨0xCC, 1, [⟨0, 16, .ro, .h, 0, none⟩,
    ⟨16, 1, .ro, .h, 0, none⟩,
    ⟨17, 1, .ro, .h, 0, none⟩]⟩,
  ⟨0x400, 32, [⟨0, 32, .ro, .h, 0, none⟩]⟩,
  ⟨0x480, 1, [⟨0, 32, .w1c, .h, 0, none⟩]⟩,
  ⟨0x484, 1, [⟨0, 32, .rw, .l, 4294967295, none⟩]⟩]

/-- Host port (Tables 2-7 to 2-20, 16-6). -/
def prtRegs : List RegDesc :=
  prtTable0 ++ prtTable1

/-! Session engine (Tables 3-11 to 3-16). -/

def F.SES_CTRL_CREDIT_DEF : Fld := ⟨0x0, 0, 12⟩
def F.SES_CTRL_CLEAR_PORTS : Fld := ⟨0x0, 12, 3⟩
def F.SES_CTRL_UDP_PORT : Fld := ⟨0x0, 16, 16⟩
def F.SES_LIMIT_CREDIT_MAX : Fld := ⟨0x4, 0, 13⟩
def F.SES_LIMIT_OPEN_RATE : Fld := ⟨0x4, 16, 16⟩
def F.SES_WIN_SEND_WIN : Fld := ⟨0x8, 0, 16⟩
def F.SES_WIN_FROZEN_MS : Fld := ⟨0x8, 16, 16⟩
def F.SES_TIMER_RTO_RTO_US : Fld := ⟨0x10, 0, 16⟩
def F.SES_TIMER_RTO_RETRY_MAX : Fld := ⟨0x10, 16, 4⟩
def F.SES_TIMER_RTO_ACK_DELAY : Fld := ⟨0x10, 20, 12⟩
def F.SES_TIMER_IDLE_IDLE_S : Fld := ⟨0x14, 0, 16⟩
def F.SES_TIMER_IDLE_REASM_MS : Fld := ⟨0x14, 16, 16⟩
def F.SES_TIMER_REO_REORDER_US : Fld := ⟨0x18, 0, 16⟩
def F.SES_TIMER_REO_LINGER_MS : Fld := ⟨0x18, 16, 16⟩
def F.SES_FREEZE_EN_EN : Fld := ⟨0x20, 0, 7⟩
def F.SES_COUNT_OPEN : Fld := ⟨0x24, 0, 15⟩
def F.SES_COUNT_FROZEN : Fld := ⟨0x24, 16, 15⟩
def F.SES_FRZ_SID_SID : Fld := ⟨0x28, 0, 14⟩
def F.SES_FRZ_SID_CAUSE : Fld := ⟨0x28, 16, 7⟩
def F.SES_FRZ_SID_VALID : Fld := ⟨0x28, 31, 1⟩
def F.SES_FRZ_HDR_BITS : Fld := ⟨0x40, 0, 32⟩
def F.SES_HDR_DROP_COUNT : Fld := ⟨0x100, 0, 32⟩
def F.SES_TAG_FAIL_COUNT : Fld := ⟨0x104, 0, 32⟩
def F.SES_DUP_DROP_COUNT : Fld := ⟨0x108, 0, 32⟩
def F.SES_REORDER_DROP_COUNT : Fld := ⟨0x10C, 0, 32⟩
def F.SES_REASM_TIMEOUT_COUNT : Fld := ⟨0x110, 0, 32⟩
def F.SES_CREDIT_OVER_COUNT : Fld := ⟨0x114, 0, 32⟩
def F.SES_TUPLE_DROP_COUNT : Fld := ⟨0x118, 0, 32⟩
def F.SES_RESEND_COUNT : Fld := ⟨0x11C, 0, 32⟩
def F.SES_OPEN_OK_COUNT : Fld := ⟨0x120, 0, 32⟩
def F.SES_OPEN_FAIL_COUNT : Fld := ⟨0x124, 0, 32⟩
def F.SES_REKEY_COUNT : Fld := ⟨0x128, 0, 32⟩
def F.SES_FROZEN_DROP_COUNT : Fld := ⟨0x12C, 0, 32⟩
def F.SES_EPOCH_DROP_COUNT : Fld := ⟨0x130, 0, 32⟩
def F.SES_CTX_SEL_SID : Fld := ⟨0x200, 0, 14⟩
def F.SES_CTX_W0_STATE : Fld := ⟨0x204, 0, 3⟩
def F.SES_CTX_W0_PORT : Fld := ⟨0x204, 3, 2⟩
def F.SES_CTX_W0_SEALED : Fld := ⟨0x204, 5, 1⟩
def F.SES_CTX_W0_ADMIN : Fld := ⟨0x204, 6, 1⟩
def F.SES_CTX_W0_REKEY_DUE : Fld := ⟨0x204, 7, 1⟩
def F.SES_CTX_W0_PROFILE : Fld := ⟨0x204, 8, 8⟩
def F.SES_CTX_W0_CREDIT : Fld := ⟨0x204, 16, 13⟩
def F.SES_CTX_W1_RX_ACK : Fld := ⟨0x208, 0, 32⟩
def F.SES_CTX_W2_TX_NEXT : Fld := ⟨0x20C, 0, 32⟩
def F.SES_CTX_W3_TX_ACKED : Fld := ⟨0x210, 0, 32⟩
def F.SES_CTX_W4_INFLIGHT : Fld := ⟨0x214, 0, 13⟩
def F.SES_CTX_W4_EPOCH : Fld := ⟨0x214, 16, 16⟩

def sesTable0 : List RegDesc := [
  ⟨0x0, 1, [⟨0, 12, .rw, .s, 64, none⟩,
    ⟨12, 3, .rw, .s, 0, none⟩,
    ⟨16, 16, .rw, .s, 20820, none⟩]⟩,
  ⟨0x4, 1, [⟨0, 13, .rw, .s, 4096, some (1, 4096)⟩,
    ⟨16, 16, .rw, .s, 200, none⟩]⟩,
  ⟨0x8, 1, [⟨0, 16, .rw, .s, 512, some (16, 4096)⟩,
    ⟨16, 16, .rw, .s, 100, none⟩]⟩,
  ⟨0x10, 1, [⟨0, 16, .rw, .s, 200, none⟩,
    ⟨16, 4, .rw, .s, 8, none⟩,
    ⟨20, 12, .rw, .s, 50, none⟩]⟩,
  ⟨0x14, 1, [⟨0, 16, .rw, .s, 300, none⟩,
    ⟨16, 16, .rw, .s, 2000, none⟩]⟩,
  ⟨0x18, 1, [⟨0, 16, .rw, .s, 500, none⟩,
    ⟨16, 16, .rw, .s, 1000, none⟩]⟩,
  ⟨0x20, 1, [⟨0, 7, .rw, .l, 119, none⟩]⟩,
  ⟨0x24, 1, [⟨0, 15, .ro, .h, 0, none⟩,
    ⟨16, 15, .ro, .h, 0, none⟩]⟩,
  ⟨0x28, 1, [⟨0, 14, .ro, .h, 0, none⟩,
    ⟨16, 7, .ro, .h, 0, none⟩,
    ⟨31, 1, .w1c, .h, 0, none⟩]⟩,
  ⟨0x40, 8, [⟨0, 32, .ro, .h, 0, none⟩]⟩,
  ⟨0x100, 1, [⟨0, 32, .ro, .h, 0, none⟩]⟩,
  ⟨0x104, 1, [⟨0, 32, .ro, .h, 0, none⟩]⟩,
  ⟨0x108, 1, [⟨0, 32, .ro, .h, 0, none⟩]⟩,
  ⟨0x10C, 1, [⟨0, 32, .ro, .h, 0, none⟩]⟩,
  ⟨0x110, 1, [⟨0, 32, .ro, .h, 0, none⟩]⟩,
  ⟨0x114, 1, [⟨0, 32, .ro, .h, 0, none⟩]⟩,
  ⟨0x118, 1, [⟨0, 32, .ro, .h, 0, none⟩]⟩,
  ⟨0x11C, 1, [⟨0, 32, .ro, .h, 0, none⟩]⟩,
  ⟨0x120, 1, [⟨0, 32, .ro, .h, 0, none⟩]⟩,
  ⟨0x124, 1, [⟨0, 32, .ro, .h, 0, none⟩]⟩]

def sesTable1 : List RegDesc := [
  ⟨0x128, 1, [⟨0, 32, .ro, .h, 0, none⟩]⟩,
  ⟨0x12C, 1, [⟨0, 32, .ro, .h, 0, none⟩]⟩,
  ⟨0x130, 1, [⟨0, 32, .ro, .h, 0, none⟩]⟩,
  ⟨0x200, 1, [⟨0, 14, .rw, .l, 0, none⟩]⟩,
  ⟨0x204, 1, [⟨0, 3, .ro, .h, 0, none⟩,
    ⟨3, 2, .ro, .h, 0, none⟩,
    ⟨5, 1, .ro, .h, 0, none⟩,
    ⟨6, 1, .ro, .h, 0, none⟩,
    ⟨7, 1, .ro, .h, 0, none⟩,
    ⟨8, 8, .ro, .h, 0, none⟩,
    ⟨16, 13, .ro, .h, 0, none⟩]⟩,
  ⟨0x208, 1, [⟨0, 32, .ro, .h, 0, none⟩]⟩,
  ⟨0x20C, 1, [⟨0, 32, .ro, .h, 0, none⟩]⟩,
  ⟨0x210, 1, [⟨0, 32, .ro, .h, 0, none⟩]⟩,
  ⟨0x214, 1, [⟨0, 13, .ro, .h, 0, none⟩,
    ⟨16, 16, .ro, .h, 0, none⟩]⟩]

/-- Session engine (Tables 3-11 to 3-16). -/
def sesRegs : List RegDesc :=
  sesTable0 ++ sesTable1

/-! Policy matcher (Tables 6-10 to 6-13). -/

def F.POL_CTRL_TC_EN : Fld := ⟨0x0, 0, 1⟩
def F.POL_CTRL_PA_EN : Fld := ⟨0x0, 1, 1⟩
def F.POL_GMASK_BITS : Fld := ⟨0x10, 0, 32⟩
def F.POL_PF_G_CARE : Fld := ⟨0x40, 0, 8⟩
def F.POL_PF_G_MATCH : Fld := ⟨0x40, 8, 8⟩
def F.POL_PF_G_ENABLE : Fld := ⟨0x40, 16, 1⟩
def F.POL_TC_ADDR_WORD : Fld := ⟨0x80, 0, 5⟩
def F.POL_TC_ADDR_ENTRY : Fld := ⟨0x80, 5, 12⟩
def F.POL_TC_DATA_DATA : Fld := ⟨0x84, 0, 32⟩
def F.POL_TC_CMD_OP : Fld := ⟨0x88, 0, 3⟩
def F.POL_TC_CMD_FROM : Fld := ⟨0x88, 4, 12⟩
def F.POL_TC_CMD_TO : Fld := ⟨0x88, 16, 12⟩
def F.POL_TC_STAT_BUSY : Fld := ⟨0x8C, 0, 1⟩
def F.POL_TC_STAT_ERR : Fld := ⟨0x8C, 1, 1⟩
def F.POL_TC_STAT_CAUSE : Fld := ⟨0x8C, 2, 3⟩
def F.POL_TC_STAT_VALID : Fld := ⟨0x8C, 8, 13⟩
def F.POL_TC_LAST_WINNER : Fld := ⟨0x90, 0, 12⟩
def F.POL_TC_LAST_SECOND : Fld := ⟨0x90, 16, 12⟩
def F.POL_TC_LAST_VALID : Fld := ⟨0x90, 31, 1⟩
def F.POL_PA_CTRL_ACTIVE : Fld := ⟨0x100, 0, 1⟩
def F.POL_PA_CTRL_SWAP : Fld := ⟨0x100, 1, 1⟩
def F.POL_PA_STAT_PENDING : Fld := ⟨0x104, 0, 1⟩
def F.POL_PA_STAT_ERR : Fld := ⟨0x104, 1, 1⟩
def F.POL_PA_STAT_CAUSE : Fld := ⟨0x104, 2, 2⟩
def F.POL_PA_ADDR_WORD : Fld := ⟨0x108, 0, 22⟩
def F.POL_PA_ADDR_BANK : Fld := ⟨0x108, 23, 1⟩
def F.POL_PA_DATA_DATA : Fld := ⟨0x10C, 0, 32⟩
def F.POL_PA_TEST_LEN : Fld := ⟨0x110, 0, 10⟩
def F.POL_PA_TEST_SET : Fld := ⟨0x110, 10, 3⟩
def F.POL_PA_TEST_GO : Fld := ⟨0x110, 13, 1⟩
def F.POL_PA_TKEY_BYTES : Fld := ⟨0x114, 0, 32⟩
def F.POL_PA_TRES_RULE : Fld := ⟨0x118, 0, 10⟩
def F.POL_PA_TRES_MATCH : Fld := ⟨0x118, 10, 1⟩
def F.POL_PA_TRES_MULTI : Fld := ⟨0x118, 11, 1⟩
def F.POL_PA_TRES_DONE : Fld := ⟨0x118, 12, 1⟩
def F.POL_PA_TRES_BADSTATE : Fld := ⟨0x118, 13, 1⟩
def F.POL_PA_TRES_FINAL : Fld := ⟨0x118, 15, 17⟩
def F.POL_TC_NOMATCH_COUNT : Fld := ⟨0x200, 0, 32⟩
def F.POL_TC_MULTI_COUNT : Fld := ⟨0x204, 0, 32⟩
def F.POL_TC_DROP_COUNT : Fld := ⟨0x208, 0, 32⟩
def F.POL_TC_OPEN_DENY_COUNT : Fld := ⟨0x20C, 0, 32⟩
def F.POL_PA_MATCH_COUNT : Fld := ⟨0x210, 0, 32⟩
def F.POL_PA_NOMATCH_COUNT : Fld := ⟨0x214, 0, 32⟩
def F.POL_PA_MULTI_COUNT : Fld := ⟨0x218, 0, 32⟩
def F.POL_PA_BADSTATE_COUNT : Fld := ⟨0x21C, 0, 32⟩

def polTable0 : List RegDesc := [
  ⟨0x0, 1, [⟨0, 1, .rw, .s, 1, none⟩,
    ⟨1, 1, .rw, .s, 1, none⟩]⟩,
  ⟨0x10, 10, [⟨0, 32, .rw, .l, 4294967295, none⟩]⟩,
  ⟨0x40, 8, [⟨0, 8, .rw, .l, 0, none⟩,
    ⟨8, 8, .rw, .l, 0, none⟩,
    ⟨16, 1, .rw, .l, 1, none⟩]⟩,
  ⟨0x80, 1, [⟨0, 5, .rw, .l, 0, some (0, 22)⟩,
    ⟨5, 12, .rw, .l, 0, none⟩]⟩,
  ⟨0x84, 1, [⟨0, 32, .rw, .l, 0, none⟩]⟩,
  ⟨0x88, 1, [⟨0, 3, .wo, .l, 0, none⟩,
    ⟨4, 12, .wo, .l, 0, none⟩,
    ⟨16, 12, .wo, .l, 0, none⟩]⟩,
  ⟨0x8C, 1, [⟨0, 1, .ro, .h, 0, none⟩,
    ⟨1, 1, .w1c, .h, 0, none⟩,
    ⟨2, 3, .ro, .h, 0, none⟩,
    ⟨8, 13, .ro, .h, 0, none⟩]⟩,
  ⟨0x90, 1, [⟨0, 12, .ro, .h, 0, none⟩,
    ⟨16, 12, .ro, .h, 0, none⟩,
    ⟨31, 1, .w1c, .h, 0, none⟩]⟩,
  ⟨0x100, 1, [⟨0, 1, .ro, .h, 0, none⟩,
    ⟨1, 1, .wo, .l, 0, none⟩]⟩,
  ⟨0x104, 1, [⟨0, 1, .ro, .h, 0, none⟩,
    ⟨1, 1, .w1c, .h, 0, none⟩,
    ⟨2, 2, .ro, .h, 0, none⟩]⟩,
  ⟨0x108, 1, [⟨0, 22, .rw, .l, 0, none⟩,
    ⟨23, 1, .rw, .l, 0, none⟩]⟩,
  ⟨0x10C, 1, [⟨0, 32, .rw, .l, 0, none⟩]⟩,
  ⟨0x110, 1, [⟨0, 10, .rw, .l, 1, some (1, 512)⟩,
    ⟨10, 3, .rw, .l, 0, none⟩,
    ⟨13, 1, .wo, .l, 0, none⟩]⟩,
  ⟨0x114, 1, [⟨0, 32, .wo, .l, 0, none⟩]⟩,
  ⟨0x118, 1, [⟨0, 10, .ro, .h, 0, none⟩,
    ⟨10, 1, .ro, .h, 0, none⟩,
    ⟨11, 1, .ro, .h, 0, none⟩,
    ⟨12, 1, .ro, .h, 0, none⟩,
    ⟨13, 1, .ro, .h, 0, none⟩,
    ⟨15, 17, .ro, .h, 0, none⟩]⟩,
  ⟨0x200, 1, [⟨0, 32, .ro, .h, 0, none⟩]⟩,
  ⟨0x204, 1, [⟨0, 32, .ro, .h, 0, none⟩]⟩,
  ⟨0x208, 1, [⟨0, 32, .ro, .h, 0, none⟩]⟩,
  ⟨0x20C, 1, [⟨0, 32, .ro, .h, 0, none⟩]⟩,
  ⟨0x210, 1, [⟨0, 32, .ro, .h, 0, none⟩]⟩]

def polTable1 : List RegDesc := [
  ⟨0x214, 1, [⟨0, 32, .ro, .h, 0, none⟩]⟩,
  ⟨0x218, 1, [⟨0, 32, .ro, .h, 0, none⟩]⟩,
  ⟨0x21C, 1, [⟨0, 32, .ro, .h, 0, none⟩]⟩]

/-- Policy matcher (Tables 6-10 to 6-13). -/
def polRegs : List RegDesc :=
  polTable0 ++ polTable1

/-! Dispatcher and placement (Tables 2-21, 5-8, 5-9, 7-8, 18-5). -/

def F.DSP_ADM_CTRL_WAIT_US : Fld := ⟨0x100, 0, 16⟩
def F.DSP_ADM_TAGS_FREE : Fld := ⟨0x104, 0, 17⟩
def F.DSP_ADM_NUM_LO_NUM : Fld := ⟨0x108, 0, 32⟩
def F.DSP_ADM_NUM_HI_NUM : Fld := ⟨0x10C, 0, 32⟩
def F.DSP_ADM_SEL_SWATH : Fld := ⟨0x110, 0, 4⟩
def F.DSP_ADM_W0_LFREE : Fld := ⟨0x114, 0, 24⟩
def F.DSP_ADM_W1_PFREE : Fld := ⟨0x118, 0, 24⟩
def F.DSP_ADM_W2_KFREE : Fld := ⟨0x11C, 0, 31⟩
def F.DSP_DEF_CTRL_CLEAR_DELIVERED : Fld := ⟨0x200, 0, 1⟩
def F.DSP_DEF_COUNT_PENDING : Fld := ⟨0x204, 0, 15⟩
def F.DSP_DEF_COUNT_DELIVERED : Fld := ⟨0x204, 16, 15⟩
def F.DSP_DEF_LOST_COUNT : Fld := ⟨0x208, 0, 32⟩
def F.DSP_DEF_SEL_INDEX : Fld := ⟨0x210, 0, 14⟩
def F.DSP_DEF_W_BITS : Fld := ⟨0x214, 0, 32⟩
def F.DSP_DEF_W6_SESSION : Fld := ⟨0x22C, 0, 14⟩
def F.DSP_DEF_W6_DELIVERED : Fld := ⟨0x22C, 14, 1⟩
def F.DSP_DEF_W6_VALID : Fld := ⟨0x22C, 15, 1⟩
def F.DSP_PLC_SEL_SLOT : Fld := ⟨0x300, 0, 8⟩
def F.DSP_PLC_ENT_OWNER : Fld := ⟨0x304, 0, 4⟩
def F.DSP_PLC_ENT_PARTNER : Fld := ⟨0x304, 4, 4⟩
def F.DSP_PLC_ENT_HOME : Fld := ⟨0x304, 8, 4⟩
def F.DSP_PLC_ENT_STATE : Fld := ⟨0x304, 12, 3⟩
def F.DSP_PLC_GEN_GEN : Fld := ⟨0x308, 0, 32⟩
def F.DSP_EVQ_STAT_SWATH : Fld := ⟨0x310, 0, 4⟩
def F.DSP_EVQ_STAT_ACTIVE : Fld := ⟨0x310, 4, 1⟩
def F.DSP_EVQ_STAT_SLOT : Fld := ⟨0x310, 5, 8⟩
def F.DSP_EVQ_STAT_DONE : Fld := ⟨0x310, 16, 8⟩
def F.DSP_EVQ_RATE_MBPS : Fld := ⟨0x314, 0, 16⟩
def F.DSP_FC_CTRL_FC_EN : Fld := ⟨0x800, 0, 1⟩
def F.DSP_FC_CTRL_FLUSH : Fld := ⟨0x800, 1, 1⟩
def F.DSP_FC_STAT_ENTRIES : Fld := ⟨0x804, 0, 19⟩
def F.DSP_FC_HITS_COUNT : Fld := ⟨0x808, 0, 32⟩
def F.DSP_FC_MISSES_COUNT : Fld := ⟨0x80C, 0, 32⟩
def F.DSP_FC_FILL_DROP_COUNT : Fld := ⟨0x810, 0, 32⟩
def F.DSP_FC_SPACE_EN : Fld := ⟨0x820, 0, 32⟩
def F.DSP_LAT_CTRL_EN : Fld := ⟨0x1000, 0, 1⟩
def F.DSP_LAT_CLS_BIN : Fld := ⟨0x1100, 0, 32⟩
def F.DSP_LAT_SWR_BIN : Fld := ⟨0x2000, 0, 32⟩
def F.DSP_LAT_SWW_BIN : Fld := ⟨0x2080, 0, 32⟩

def dspTable0 : List RegDesc := [
  ⟨0x100, 1, [⟨0, 16, .rw, .s, 1000, some (1, 65535)⟩]⟩,
  ⟨0x104, 1, [⟨0, 17, .ro, .h, 65536, none⟩]⟩,
  ⟨0x108, 1, [⟨0, 32, .ro, .h, 0, none⟩]⟩,
  ⟨0x10C, 1, [⟨0, 32, .ro, .h, 0, none⟩]⟩,
  ⟨0x110, 1, [⟨0, 4, .rw, .l, 0, none⟩]⟩,
  ⟨0x114, 1, [⟨0, 24, .ro, .h, 0, none⟩]⟩,
  ⟨0x118, 1, [⟨0, 24, .ro, .h, 0, none⟩]⟩,
  ⟨0x11C, 1, [⟨0, 31, .ro, .h, 0, none⟩]⟩,
  ⟨0x200, 1, [⟨0, 1, .wo, .l, 0, none⟩]⟩,
  ⟨0x204, 1, [⟨0, 15, .ro, .h, 0, none⟩,
    ⟨16, 15, .ro, .h, 0, none⟩]⟩,
  ⟨0x208, 1, [⟨0, 32, .ro, .h, 0, none⟩]⟩,
  ⟨0x210, 1, [⟨0, 14, .rw, .l, 0, none⟩]⟩,
  ⟨0x214, 6, [⟨0, 32, .ro, .h, 0, none⟩]⟩,
  ⟨0x22C, 1, [⟨0, 14, .ro, .h, 0, none⟩,
    ⟨14, 1, .ro, .h, 0, none⟩,
    ⟨15, 1, .ro, .h, 0, none⟩]⟩,
  ⟨0x300, 1, [⟨0, 8, .rw, .l, 0, none⟩]⟩,
  ⟨0x304, 1, [⟨0, 4, .ro, .h, 0, none⟩,
    ⟨4, 4, .ro, .h, 0, none⟩,
    ⟨8, 4, .ro, .h, 0, none⟩,
    ⟨12, 3, .ro, .h, 0, none⟩]⟩,
  ⟨0x308, 1, [⟨0, 32, .ro, .h, 0, none⟩]⟩,
  ⟨0x310, 1, [⟨0, 4, .ro, .h, 0, none⟩,
    ⟨4, 1, .ro, .h, 0, none⟩,
    ⟨5, 8, .ro, .h, 0, none⟩,
    ⟨16, 8, .ro, .h, 0, none⟩]⟩,
  ⟨0x314, 1, [⟨0, 16, .rw, .l, 2000, some (100, 8000)⟩]⟩,
  ⟨0x800, 1, [⟨0, 1, .rw, .s, 1, none⟩,
    ⟨1, 1, .wo, .l, 0, none⟩]⟩]

def dspTable1 : List RegDesc := [
  ⟨0x804, 1, [⟨0, 19, .ro, .h, 0, none⟩]⟩,
  ⟨0x808, 1, [⟨0, 32, .ro, .h, 0, none⟩]⟩,
  ⟨0x80C, 1, [⟨0, 32, .ro, .h, 0, none⟩]⟩,
  ⟨0x810, 1, [⟨0, 32, .ro, .h, 0, none⟩]⟩,
  ⟨0x820, 8, [⟨0, 32, .rw, .s, 4294967295, none⟩]⟩,
  ⟨0x1000, 1, [⟨0, 1, .rw, .l, 1, none⟩]⟩,
  ⟨0x1100, 256, [⟨0, 32, .ro, .h, 0, none⟩]⟩,
  ⟨0x2000, 32, [⟨0, 32, .ro, .h, 0, none⟩]⟩,
  ⟨0x2080, 32, [⟨0, 32, .ro, .h, 0, none⟩]⟩]

/-- Dispatcher and placement (Tables 2-21, 5-8, 5-9, 7-8, 18-5). -/
def dspRegs : List RegDesc :=
  dspTable0 ++ dspTable1

/-! Swath (Tables 5-10, 7-9, 7-10, 8-11 to 8-14, 9-6, 9-7, 10-4, 10-5, 11-12, 16-7, 18-4). -/

def F.SW_STATE_STATE : Fld := ⟨0x0, 0, 3⟩
def F.SW_SLOTS_OWNED : Fld := ⟨0x4, 0, 9⟩
def F.SW_SLOTS_PARTNER : Fld := ⟨0x4, 9, 8⟩
def F.SW_CORE_HB_COUNT : Fld := ⟨0x8, 0, 32⟩
def F.SW_OP_CNT_COUNT : Fld := ⟨0x100, 0, 32⟩
def F.SW_MBX_DATA : Fld := ⟨0x300, 0, 32⟩
def F.SW_BUF_CTRL_DRAIN_START : Fld := ⟨0x400, 0, 7⟩
def F.SW_BUF_CTRL_STREAM_MIB : Fld := ⟨0x400, 8, 6⟩
def F.SW_BUF_STAT_USED : Fld := ⟨0x404, 0, 11⟩
def F.SW_BUF_STAT_HELD : Fld := ⟨0x404, 16, 11⟩
def F.SW_BUF_FLUSH_TIME_US : Fld := ⟨0x408, 0, 16⟩
def F.SW_BUF_FLUSH_UNITS : Fld := ⟨0x408, 16, 11⟩
def F.SW_BUF_FLUSH_LOST : Fld := ⟨0x408, 30, 1⟩
def F.SW_BUF_FLUSH_VALID : Fld := ⟨0x408, 31, 1⟩
def F.SW_HAZ_STAT_ENTRIES : Fld := ⟨0x40C, 0, 13⟩
def F.SW_HAZ_STAT_CHAINED : Fld := ⟨0x40C, 16, 13⟩
def F.SW_HAZ_SLOTS_FREE : Fld := ⟨0x410, 0, 13⟩
def F.SW_IDX_STAT_KEYS : Fld := ⟨0x500, 0, 31⟩
def F.SW_IDX_OVF_USED : Fld := ⟨0x504, 0, 25⟩
def F.SW_IDX_CKPT_DIRTY : Fld := ⟨0x508, 0, 13⟩
def F.SW_IDX_CKPT_RING_PCT : Fld := ⟨0x508, 16, 7⟩
def F.SW_IDX_CKPT_CTRL_RING_START : Fld := ⟨0x50C, 0, 7⟩
def F.SW_IDX_CKPT_CTRL_FORCE : Fld := ⟨0x50C, 7, 1⟩
def F.SW_IDX_CKPT_CTRL_PERIOD_S : Fld := ⟨0x50C, 8, 16⟩
def F.SW_IDX_REBUILD_ACTIVE : Fld := ⟨0x510, 0, 1⟩
def F.SW_IDX_REBUILD_PERMILLE : Fld := ⟨0x510, 1, 10⟩
def F.SW_VC_CTRL_EN : Fld := ⟨0x520, 0, 1⟩
def F.SW_VC_CTRL_FLUSH : Fld := ⟨0x520, 1, 1⟩
def F.SW_VC_CTRL_FILL_MAX : Fld := ⟨0x520, 4, 8⟩
def F.SW_VC_STAT_UNITS : Fld := ⟨0x524, 0, 25⟩
def F.SW_PAIR_STAT_AHEAD : Fld := ⟨0x528, 0, 31⟩
def F.SW_IDX_VERIFY_COUNT : Fld := ⟨0x540, 0, 32⟩
def F.SW_IDX_COLLIDE_COUNT : Fld := ⟨0x544, 0, 32⟩
def F.SW_IDX_NOROOM_COUNT : Fld := ⟨0x548, 0, 32⟩
def F.SW_VC_HITS_COUNT : Fld := ⟨0x54C, 0, 32⟩
def F.SW_VC_MISSES_COUNT : Fld := ⟨0x550, 0, 32⟩
def F.SW_MED_TED_LO : Fld := ⟨0x600, 0, 5⟩
def F.SW_MED_TED_AGE_H : Fld := ⟨0x600, 8, 8⟩
def F.SW_MED_TED_IDLE_MS : Fld := ⟨0x600, 16, 16⟩
def F.SW_MED_GLEAN_START : Fld := ⟨0x604, 0, 8⟩
def F.SW_MED_GLEAN_URGENT : Fld := ⟨0x604, 8, 8⟩
def F.SW_MED_GLEAN_FLOOR : Fld := ⟨0x604, 16, 8⟩
def F.SW_MED_WL_SPREAD : Fld := ⟨0x608, 0, 16⟩
def F.SW_MED_WL_REFRESH_RETRY : Fld := ⟨0x608, 16, 4⟩
def F.SW_MED_WL_PACK_MAX_S : Fld := ⟨0x608, 20, 8⟩
def F.SW_MED_STAT_SB_SERVICE : Fld := ⟨0x610, 0, 12⟩
def F.SW_MED_STAT_FREE_SB : Fld := ⟨0x610, 12, 12⟩
def F.SW_MED_STAT_MODE : Fld := ⟨0x610, 24, 3⟩
def F.SW_MED_STAT_DIRECT : Fld := ⟨0x610, 27, 1⟩
def F.SW_MED_SLC_FREE : Fld := ⟨0x614, 0, 5⟩
def F.SW_MED_SLC_FULL : Fld := ⟨0x614, 5, 5⟩
def F.SW_MED_SLC_OPEN : Fld := ⟨0x614, 10, 1⟩
def F.SW_MED_SLC_TEDDING : Fld := ⟨0x614, 11, 1⟩
def F.SW_MED_FREE_BLK_TOTAL : Fld := ⟨0x618, 0, 14⟩
def F.SW_MED_FREE_BLK_MIN : Fld := ⟨0x618, 14, 8⟩
def F.SW_MED_FREE_BLK_MIN_PLANE : Fld := ⟨0x618, 22, 7⟩
def F.SW_MED_WEAR_AVG : Fld := ⟨0x61C, 0, 16⟩
def F.SW_MED_WEAR_MAX : Fld := ⟨0x61C, 16, 16⟩
def F.SW_MED_WA_EQ : Fld := ⟨0x620, 0, 16⟩
def F.SW_MED_WA_GLEAN : Fld := ⟨0x620, 16, 16⟩
def F.SW_MED_SD_QUEUE : Fld := ⟨0x624, 0, 8⟩
def F.SW_MED_SD_TARGETS : Fld := ⟨0x624, 8, 12⟩
def F.SW_MED_SB_SEL_SB : Fld := ⟨0x630, 0, 11⟩
def F.SW_MED_SB_W0_STATE : Fld := ⟨0x634, 0, 4⟩
def F.SW_MED_SB_W0_META : Fld := ⟨0x634, 4, 1⟩
def F.SW_MED_SB_W0_REFRESH : Fld := ⟨0x634, 5, 1⟩
def F.SW_MED_SB_W0_CLOSED : Fld := ⟨0x634, 6, 1⟩
def F.SW_MED_SB_W0_REPLACED : Fld := ⟨0x634, 7, 7⟩
def F.SW_MED_SB_W1_VALID : Fld := ⟨0x638, 0, 20⟩
def F.SW_MED_SB_W2_WEAR : Fld := ⟨0x63C, 0, 17⟩
def F.SW_MED_SB_W3_CLOSED_S : Fld := ⟨0x640, 0, 32⟩
def F.SW_MED_PROG_COUNT : Fld := ⟨0x680, 0, 32⟩
def F.SW_MED_ERASE_COUNT : Fld := ⟨0x684, 0, 32⟩
def F.SW_MED_PROG_FAIL_COUNT : Fld := ⟨0x688, 0, 32⟩
def F.SW_MED_ERASE_FAIL_COUNT : Fld := ⟨0x68C, 0, 32⟩
def F.SW_MED_RETIRED_COUNT : Fld := ⟨0x690, 0, 32⟩
def F.SW_MED_DISSOLVED_COUNT : Fld := ⟨0x694, 0, 32⟩
def F.SW_MED_RETRY_COUNT : Fld := ⟨0x698, 0, 32⟩
def F.SW_MED_SOFT_COUNT : Fld := ⟨0x69C, 0, 32⟩
def F.SW_MED_PARITY_COUNT : Fld := ⟨0x6A0, 0, 32⟩
def F.SW_MED_LOST_COUNT : Fld := ⟨0x6A4, 0, 32⟩
def F.SW_MED_SUSPEND_COUNT : Fld := ⟨0x6A8, 0, 32⟩
def F.SW_MED_REFRESH_COUNT : Fld := ⟨0x6AC, 0, 32⟩
def F.SW_MED_TED_SB_COUNT : Fld := ⟨0x6B0, 0, 32⟩
def F.SW_MED_GLEAN_SB_COUNT : Fld := ⟨0x6B4, 0, 32⟩
def F.SW_NAND_SUSP_EN : Fld := ⟨0x700, 0, 1⟩
def F.SW_NAND_SUSP_PROG_MAX : Fld := ⟨0x700, 1, 3⟩
def F.SW_NAND_SUSP_ERASE_MAX : Fld := ⟨0x700, 4, 5⟩
def F.SW_NAND_SUSP_READS_PER : Fld := ⟨0x700, 9, 3⟩
def F.SW_NAND_SUSP_MIN_RUN_US : Fld := ⟨0x700, 16, 16⟩
def F.SW_NAND_LDPC_RETRY_MAX : Fld := ⟨0x704, 0, 5⟩
def F.SW_NAND_LDPC_SOFT_EN : Fld := ⟨0x704, 5, 1⟩
def F.SW_NAND_LDPC_PARITY_EN : Fld := ⟨0x704, 6, 1⟩
def F.SW_CIP_CTRL_KAT_GO : Fld := ⟨0x800, 0, 1⟩
def F.SW_CIP_STAT_KAT_DONE : Fld := ⟨0x804, 0, 1⟩
def F.SW_CIP_STAT_KAT_PASS : Fld := ⟨0x804, 1, 1⟩
def F.SW_CIP_STAT_WARN : Fld := ⟨0x804, 2, 1⟩
def F.SW_CIP_STAT_SPENT : Fld := ⟨0x804, 3, 1⟩
def F.SW_CIP_STAT_SLOTS : Fld := ⟨0x804, 4, 9⟩
def F.SW_CIP_STAT_EXHAUSTED : Fld := ⟨0x804, 13, 1⟩
def F.SW_CIP_COUNT_LO_COUNT : Fld := ⟨0x808, 0, 32⟩
def F.SW_CIP_COUNT_HI_COUNT : Fld := ⟨0x80C, 0, 28⟩
def F.SW_CIP_MARK_LO_MARK : Fld := ⟨0x810, 0, 32⟩
def F.SW_CIP_MARK_HI_MARK : Fld := ⟨0x814, 0, 28⟩
def F.SW_CIP_FAIL0_HASH : Fld := ⟨0x820, 0, 32⟩
def F.SW_CIP_FAIL1_HASH : Fld := ⟨0x824, 0, 32⟩
def F.SW_CIP_FAIL2_SHEAF : Fld := ⟨0x828, 0, 32⟩
def F.SW_CIP_FAIL3_SPACE : Fld := ⟨0x82C, 0, 8⟩
def F.SW_CIP_FAIL3_RECORD : Fld := ⟨0x82C, 8, 1⟩
def F.SW_CIP_FAIL3_MERGE : Fld := ⟨0x82C, 9, 1⟩
def F.SW_CIP_FAIL3_PAIRED : Fld := ⟨0x82C, 10, 1⟩
def F.SW_CIP_FAIL3_VALID : Fld := ⟨0x82C, 31, 1⟩
def F.SW_CIP_KEY_SEL_SPACE : Fld := ⟨0x830, 0, 8⟩
def F.SW_CIP_KEY_STAT_LOADED : Fld := ⟨0x834, 0, 1⟩
def F.SW_CIP_KEY_STAT_UNWRAP_FAIL : Fld := ⟨0x834, 1, 1⟩
def F.SW_CIP_KEY_STAT_GEN : Fld := ⟨0x834, 16, 16⟩
def F.SW_CIP_SEAL_COUNT : Fld := ⟨0x840, 0, 32⟩
def F.SW_CIP_OPEN_COUNT : Fld := ⟨0x844, 0, 32⟩
def F.SW_CIP_AUTH_FAIL_COUNT : Fld := ⟨0x848, 0, 32⟩
def F.SW_CIP_REC_FAIL_COUNT : Fld := ⟨0x84C, 0, 32⟩
def F.SW_CIP_RESEAL_COUNT : Fld := ⟨0x850, 0, 32⟩
def F.SW_MEM_CTRL_MODE : Fld := ⟨0x900, 0, 1⟩
def F.SW_MEM_CTRL_MARK_EN : Fld := ⟨0x900, 1, 1⟩
def F.SW_MEM_CTRL_UNMARK : Fld := ⟨0x900, 2, 1⟩
def F.SW_MEM_CTRL_PATROL_H : Fld := ⟨0x900, 8, 8⟩
def F.SW_MEM_CTRL_MARK_THR : Fld := ⟨0x900, 16, 8⟩
def F.SW_MEM_CTRL_RETIRE_THR : Fld := ⟨0x900, 24, 4⟩
def F.SW_MEM_STAT_FILLED : Fld := ⟨0x904, 0, 1⟩
def F.SW_MEM_STAT_MARKED : Fld := ⟨0x904, 1, 1⟩
def F.SW_MEM_STAT_MARK_DEV : Fld := ⟨0x904, 2, 4⟩
def F.SW_MEM_STAT_RETIRED : Fld := ⟨0x904, 6, 9⟩
def F.SW_MEM_STAT_PATROL_PCT : Fld := ⟨0x904, 16, 7⟩
def F.SW_MEM_LOG_SEL_INDEX : Fld := ⟨0x90C, 0, 8⟩
def F.SW_MEM_LOG_W0_GRANULE : Fld := ⟨0x910, 0, 28⟩
def F.SW_MEM_LOG_W0_DEV : Fld := ⟨0x910, 28, 4⟩
def F.SW_MEM_LOG_W1_COUNT : Fld := ⟨0x914, 0, 8⟩
def F.SW_MEM_LOG_W1_PASSES : Fld := ⟨0x914, 8, 8⟩
def F.SW_MEM_LOG_W1_SOURCE : Fld := ⟨0x914, 16, 2⟩
def F.SW_MEM_LOG_W1_VALID : Fld := ⟨0x914, 31, 1⟩
def F.SW_MEM_UE_ADDR_GRANULE : Fld := ⟨0x918, 0, 28⟩
def F.SW_MEM_UE_ADDR_BEAT : Fld := ⟨0x918, 28, 4⟩
def F.SW_MEM_UE_INFO_MASTER : Fld := ⟨0x91C, 0, 3⟩
def F.SW_MEM_UE_INFO_REGION : Fld := ⟨0x91C, 3, 4⟩
def F.SW_MEM_UE_INFO_VALID : Fld := ⟨0x91C, 31, 1⟩
def F.SW_MEM_DMA_HALTED : Fld := ⟨0x920, 0, 8⟩
def F.SW_MEM_DMA_RESTART : Fld := ⟨0x920, 8, 8⟩
def F.SW_MEM_CL_COUNT_COUNT : Fld := ⟨0x930, 0, 16⟩
def F.SW_MEM_CL_COUNT_FILL : Fld := ⟨0x930, 16, 6⟩
def F.SW_MEM_CL_COUNT_OVF : Fld := ⟨0x930, 22, 1⟩
def F.SW_MEM_CL_COUNT_CLEAR : Fld := ⟨0x930, 31, 1⟩
def F.SW_MEM_CL_SEL_INDEX : Fld := ⟨0x934, 0, 5⟩
def F.SW_MEM_CL_ENT_GRANULE : Fld := ⟨0x938, 0, 28⟩
def F.SW_MEM_CL_ENT_DEV : Fld := ⟨0x938, 28, 4⟩
def F.SW_MEM_CHK_CTRL_EN : Fld := ⟨0x940, 0, 1⟩
def F.SW_MEM_CHK_CTRL_KILL_EN : Fld := ⟨0x940, 1, 1⟩
def F.SW_MEM_CHK_CTRL_KILL_DEV : Fld := ⟨0x940, 2, 4⟩
def F.SW_MEM_CHK_CTRL_CHK8 : Fld := ⟨0x940, 8, 8⟩
def F.SW_MEM_CHK_CTRL_CHK9 : Fld := ⟨0x940, 16, 8⟩
def F.SW_MEM_CHK_RAW_RAW8 : Fld := ⟨0x944, 0, 8⟩
def F.SW_MEM_CHK_RAW_RAW9 : Fld := ⟨0x944, 8, 8⟩
def F.SW_MEM_CHK_RAW_S0 : Fld := ⟨0x944, 16, 8⟩
def F.SW_MEM_CHK_RAW_S1 : Fld := ⟨0x944, 24, 8⟩
def F.SW_MEM_RMP_SEL_ENTRY : Fld := ⟨0x950, 0, 8⟩
def F.SW_MEM_RMP_ENT_PAGE : Fld := ⟨0x954, 0, 23⟩
def F.SW_MEM_RMP_ENT_VALID : Fld := ⟨0x954, 31, 1⟩
def F.SW_MEM_DEV_COUNT : Fld := ⟨0x960, 0, 32⟩
def F.SW_SRAM_STAT_FUSED : Fld := ⟨0x990, 0, 8⟩
def F.SW_SRAM_STAT_SOFT : Fld := ⟨0x990, 8, 8⟩
def F.SW_SRAM_CE_COUNT : Fld := ⟨0x994, 0, 32⟩
def F.SW_SRAM_UE_COUNT : Fld := ⟨0x998, 0, 32⟩
def F.SW_JM_STAT_SPARE_LEFT : Fld := ⟨0x9A0, 0, 20⟩
def F.SW_JM_WEAR_AVG : Fld := ⟨0x9A4, 0, 16⟩
def F.SW_JM_WEAR_MAX : Fld := ⟨0x9A4, 16, 16⟩
def F.SW_JM_GAP_GAP_INT : Fld := ⟨0x9A8, 0, 8⟩
def F.SW_JM_CORR_COUNT : Fld := ⟨0x9AC, 0, 32⟩
def F.SW_JM_UNCORR_COUNT : Fld := ⟨0x9B0, 0, 32⟩
def F.SW_JM_RETIRED_COUNT : Fld := ⟨0x9B4, 0, 32⟩
def F.SW_IRQ_SRC_PRIO : Fld := ⟨0xA00, 0, 4⟩
def F.SW_IRQ_SRC_TARGET : Fld := ⟨0xA00, 4, 5⟩
def F.SW_IRQ_SRC_EVENTS : Fld := ⟨0xA00, 16, 8⟩
def F.SW_IRQ_SRC_SIGNAL : Fld := ⟨0xA00, 24, 1⟩
def F.SW_IRQ_SRC_PENDING : Fld := ⟨0xA00, 25, 1⟩
def F.SW_IRQ_SRC_SERVICE : Fld := ⟨0xA00, 26, 1⟩
def F.SW_IRQ_SRC_LATCH : Fld := ⟨0xA00, 27, 1⟩
def F.SW_IRQ_SRC_STORM : Fld := ⟨0xA00, 28, 1⟩
def F.SW_IRQ_THRESH_THRESH : Fld := ⟨0xB00, 0, 4⟩
def F.SW_IRQ_CLAIM_WORD : Fld := ⟨0xB04, 0, 32⟩
def F.SW_IRQ_DONE_ID : Fld := ⟨0xB08, 0, 10⟩
def F.SW_IRQ_EVT_BITS : Fld := ⟨0xB10, 0, 32⟩
def F.SW_IRQ_PEND_BITS : Fld := ⟨0xB18, 0, 32⟩
def F.SW_TST_STAT_TEST : Fld := ⟨0xC00, 0, 2⟩
def F.SW_TST_STAT_ACTIVE : Fld := ⟨0xC00, 2, 1⟩
def F.SW_TST_STAT_PASS : Fld := ⟨0xC00, 3, 16⟩
def F.SW_TST_STAT_FAULTS : Fld := ⟨0xC00, 19, 13⟩
def F.SW_TST_FAULT_ADDR : Fld := ⟨0xC04, 0, 32⟩
def F.SW_TST_FAULT_INFO_DEV : Fld := ⟨0xC08, 0, 4⟩
def F.SW_TST_FAULT_INFO_KIND : Fld := ⟨0xC08, 4, 4⟩
def F.SW_TST_FAULT_INFO_VALID : Fld := ⟨0xC08, 31, 1⟩

def swTable0 : List RegDesc := [
  ⟨0x0, 1, [⟨0, 3, .ro, .h, 1, none⟩]⟩,
  ⟨0x4, 1, [⟨0, 9, .ro, .h, 0, none⟩,
    ⟨9, 8, .ro, .h, 0, none⟩]⟩,
  ⟨0x8, 1, [⟨0, 32, .ro, .h, 0, none⟩]⟩,
  ⟨0x100, 32, [⟨0, 32, .ro, .h, 0, none⟩]⟩,
  ⟨0x300, 64, [⟨0, 32, .ro, .h, 0, none⟩]⟩,
  ⟨0x400, 1, [⟨0, 7, .rw, .s, 25, some (1, 100)⟩,
    ⟨8, 6, .rw, .s, 8, some (1, 63)⟩]⟩,
  ⟨0x404, 1, [⟨0, 11, .ro, .h, 0, none⟩,
    ⟨16, 11, .ro, .h, 0, none⟩]⟩,
  ⟨0x408, 1, [⟨0, 16, .ro, .h, 0, none⟩,
    ⟨16, 11, .ro, .h, 0, none⟩,
    ⟨30, 1, .ro, .h, 0, none⟩,
    ⟨31, 1, .ro, .h, 0, none⟩]⟩,
  ⟨0x40C, 1, [⟨0, 13, .ro, .h, 0, none⟩,
    ⟨16, 13, .ro, .h, 0, none⟩]⟩,
  ⟨0x410, 1, [⟨0, 13, .ro, .h, 4096, none⟩]⟩,
  ⟨0x500, 1, [⟨0, 31, .ro, .h, 0, none⟩]⟩,
  ⟨0x504, 1, [⟨0, 25, .ro, .h, 0, none⟩]⟩,
  ⟨0x508, 1, [⟨0, 13, .ro, .h, 0, none⟩,
    ⟨16, 7, .ro, .h, 0, none⟩]⟩,
  ⟨0x50C, 1, [⟨0, 7, .rw, .s, 50, some (10, 90)⟩,
    ⟨7, 1, .wo, .l, 0, none⟩,
    ⟨8, 16, .rw, .s, 60, some (10, 3600)⟩]⟩,
  ⟨0x510, 1, [⟨0, 1, .ro, .h, 0, none⟩,
    ⟨1, 10, .ro, .h, 0, none⟩]⟩,
  ⟨0x520, 1, [⟨0, 1, .rw, .s, 1, none⟩,
    ⟨1, 1, .wo, .l, 0, none⟩,
    ⟨4, 8, .rw, .s, 64, some (1, 255)⟩]⟩,
  ⟨0x524, 1, [⟨0, 25, .ro, .h, 0, none⟩]⟩,
  ⟨0x528, 1, [⟨0, 31, .ro, .h, 0, none⟩]⟩,
  ⟨0x540, 1, [⟨0, 32, .ro, .h, 0, none⟩]⟩,
  ⟨0x544, 1, [⟨0, 32, .ro, .h, 0, none⟩]⟩]

def swTable1 : List RegDesc := [
  ⟨0x548, 1, [⟨0, 32, .ro, .h, 0, none⟩]⟩,
  ⟨0x54C, 1, [⟨0, 32, .ro, .h, 0, none⟩]⟩,
  ⟨0x550, 1, [⟨0, 32, .ro, .h, 0, none⟩]⟩,
  ⟨0x600, 1, [⟨0, 5, .rw, .s, 4, some (1, 24)⟩,
    ⟨8, 8, .rw, .s, 24, some (1, 168)⟩,
    ⟨16, 16, .rw, .s, 50, none⟩]⟩,
  ⟨0x604, 1, [⟨0, 8, .rw, .s, 40, none⟩,
    ⟨8, 8, .rw, .s, 20, none⟩,
    ⟨16, 8, .rw, .s, 8, none⟩]⟩,
  ⟨0x608, 1, [⟨0, 16, .rw, .s, 4000, none⟩,
    ⟨16, 4, .rw, .s, 6, none⟩,
    ⟨20, 8, .rw, .s, 60, some (1, 255)⟩]⟩,
  ⟨0x610, 1, [⟨0, 12, .ro, .h, 0, none⟩,
    ⟨12, 12, .ro, .h, 0, none⟩,
    ⟨24, 3, .ro, .h, 0, none⟩,
    ⟨27, 1, .ro, .h, 0, none⟩]⟩,
  ⟨0x614, 1, [⟨0, 5, .ro, .h, 24, none⟩,
    ⟨5, 5, .ro, .h, 0, none⟩,
    ⟨10, 1, .ro, .h, 0, none⟩,
    ⟨11, 1, .ro, .h, 0, none⟩]⟩,
  ⟨0x618, 1, [⟨0, 14, .ro, .h, 0, none⟩,
    ⟨14, 8, .ro, .h, 0, none⟩,
    ⟨22, 7, .ro, .h, 0, none⟩]⟩,
  ⟨0x61C, 1, [⟨0, 16, .ro, .h, 0, none⟩,
    ⟨16, 16, .ro, .h, 0, none⟩]⟩,
  ⟨0x620, 1, [⟨0, 16, .ro, .h, 0, none⟩,
    ⟨16, 16, .ro, .h, 0, none⟩]⟩,
  ⟨0x624, 1, [⟨0, 8, .ro, .h, 0, none⟩,
    ⟨8, 12, .ro, .h, 0, none⟩]⟩,
  ⟨0x630, 1, [⟨0, 11, .rw, .l, 0, none⟩]⟩,
  ⟨0x634, 1, [⟨0, 4, .ro, .h, 0, none⟩,
    ⟨4, 1, .ro, .h, 0, none⟩,
    ⟨5, 1, .ro, .h, 0, none⟩,
    ⟨6, 1, .ro, .h, 0, none⟩,
    ⟨7, 7, .ro, .h, 0, none⟩]⟩,
  ⟨0x638, 1, [⟨0, 20, .ro, .h, 0, none⟩]⟩,
  ⟨0x63C, 1, [⟨0, 17, .ro, .h, 0, none⟩]⟩,
  ⟨0x640, 1, [⟨0, 32, .ro, .h, 0, none⟩]⟩,
  ⟨0x680, 1, [⟨0, 32, .ro, .h, 0, none⟩]⟩,
  ⟨0x684, 1, [⟨0, 32, .ro, .h, 0, none⟩]⟩,
  ⟨0x688, 1, [⟨0, 32, .ro, .h, 0, none⟩]⟩]

def swTable2 : List RegDesc := [
  ⟨0x68C, 1, [⟨0, 32, .ro, .h, 0, none⟩]⟩,
  ⟨0x690, 1, [⟨0, 32, .ro, .h, 0, none⟩]⟩,
  ⟨0x694, 1, [⟨0, 32, .ro, .h, 0, none⟩]⟩,
  ⟨0x698, 1, [⟨0, 32, .ro, .h, 0, none⟩]⟩,
  ⟨0x69C, 1, [⟨0, 32, .ro, .h, 0, none⟩]⟩,
  ⟨0x6A0, 1, [⟨0, 32, .ro, .h, 0, none⟩]⟩,
  ⟨0x6A4, 1, [⟨0, 32, .ro, .h, 0, none⟩]⟩,
  ⟨0x6A8, 1, [⟨0, 32, .ro, .h, 0, none⟩]⟩,
  ⟨0x6AC, 1, [⟨0, 32, .ro, .h, 0, none⟩]⟩,
  ⟨0x6B0, 1, [⟨0, 32, .ro, .h, 0, none⟩]⟩,
  ⟨0x6B4, 1, [⟨0, 32, .ro, .h, 0, none⟩]⟩,
  ⟨0x700, 1, [⟨0, 1, .rw, .s, 1, none⟩,
    ⟨1, 3, .rw, .s, 4, none⟩,
    ⟨4, 5, .rw, .s, 16, none⟩,
    ⟨9, 3, .rw, .s, 4, some (1, 7)⟩,
    ⟨16, 16, .rw, .s, 200, none⟩]⟩,
  ⟨0x704, 1, [⟨0, 5, .rw, .s, 16, some (0, 16)⟩,
    ⟨5, 1, .rw, .s, 1, none⟩,
    ⟨6, 1, .rw, .s, 1, none⟩]⟩,
  ⟨0x800, 1, [⟨0, 1, .wo, .l, 0, none⟩]⟩,
  ⟨0x804, 1, [⟨0, 1, .ro, .h, 0, none⟩,
    ⟨1, 1, .ro, .h, 0, none⟩,
    ⟨2, 1, .ro, .h, 0, none⟩,
    ⟨3, 1, .ro, .h, 0, none⟩,
    ⟨4, 9, .ro, .h, 0, none⟩,
    ⟨13, 1, .ro, .h, 0, none⟩]⟩,
  ⟨0x808, 1, [⟨0, 32, .ro, .h, 0, none⟩]⟩,
  ⟨0x80C, 1, [⟨0, 28, .ro, .h, 0, none⟩]⟩,
  ⟨0x810, 1, [⟨0, 32, .ro, .h, 0, none⟩]⟩,
  ⟨0x814, 1, [⟨0, 28, .ro, .h, 0, none⟩]⟩,
  ⟨0x820, 1, [⟨0, 32, .ro, .h, 0, none⟩]⟩]

def swTable3 : List RegDesc := [
  ⟨0x824, 1, [⟨0, 32, .ro, .h, 0, none⟩]⟩,
  ⟨0x828, 1, [⟨0, 32, .ro, .h, 0, none⟩]⟩,
  ⟨0x82C, 1, [⟨0, 8, .ro, .h, 0, none⟩,
    ⟨8, 1, .ro, .h, 0, none⟩,
    ⟨9, 1, .ro, .h, 0, none⟩,
    ⟨10, 1, .ro, .h, 0, none⟩,
    ⟨31, 1, .w1c, .h, 0, none⟩]⟩,
  ⟨0x830, 1, [⟨0, 8, .rw, .l, 0, none⟩]⟩,
  ⟨0x834, 1, [⟨0, 1, .ro, .h, 0, none⟩,
    ⟨1, 1, .ro, .h, 0, none⟩,
    ⟨16, 16, .ro, .h, 0, none⟩]⟩,
  ⟨0x840, 1, [⟨0, 32, .ro, .h, 0, none⟩]⟩,
  ⟨0x844, 1, [⟨0, 32, .ro, .h, 0, none⟩]⟩,
  ⟨0x848, 1, [⟨0, 32, .ro, .h, 0, none⟩]⟩,
  ⟨0x84C, 1, [⟨0, 32, .ro, .h, 0, none⟩]⟩,
  ⟨0x850, 1, [⟨0, 32, .ro, .h, 0, none⟩]⟩,
  ⟨0x900, 1, [⟨0, 1, .rw, .s, 0, none⟩,
    ⟨1, 1, .rw, .s, 1, none⟩,
    ⟨2, 1, .wo, .l, 0, none⟩,
    ⟨8, 8, .rw, .s, 24, some (0, 168)⟩,
    ⟨16, 8, .rw, .s, 64, some (8, 255)⟩,
    ⟨24, 4, .rw, .s, 2, some (1, 15)⟩]⟩,
  ⟨0x904, 1, [⟨0, 1, .ro, .h, 0, none⟩,
    ⟨1, 1, .ro, .h, 0, none⟩,
    ⟨2, 4, .ro, .h, 0, none⟩,
    ⟨6, 9, .ro, .h, 0, none⟩,
    ⟨16, 7, .ro, .h, 0, none⟩]⟩,
  ⟨0x90C, 1, [⟨0, 8, .rw, .l, 0, none⟩]⟩,
  ⟨0x910, 1, [⟨0, 28, .ro, .h, 0, none⟩,
    ⟨28, 4, .ro, .h, 0, none⟩]⟩,
  ⟨0x914, 1, [⟨0, 8, .ro, .h, 0, none⟩,
    ⟨8, 8, .ro, .h, 0, none⟩,
    ⟨16, 2, .ro, .h, 0, none⟩,
    ⟨31, 1, .ro, .h, 0, none⟩]⟩,
  ⟨0x918, 1, [⟨0, 28, .ro, .h, 0, none⟩,
    ⟨28, 4, .ro, .h, 0, none⟩]⟩,
  ⟨0x91C, 1, [⟨0, 3, .ro, .h, 0, none⟩,
    ⟨3, 4, .ro, .h, 0, none⟩,
    ⟨31, 1, .w1c, .h, 0, none⟩]⟩,
  ⟨0x920, 1, [⟨0, 8, .ro, .h, 0, none⟩,
    ⟨8, 8, .wo, .l, 0, none⟩]⟩,
  ⟨0x930, 1, [⟨0, 16, .ro, .h, 0, none⟩,
    ⟨16, 6, .ro, .h, 0, none⟩,
    ⟨22, 1, .ro, .h, 0, none⟩,
    ⟨31, 1, .wo, .l, 0, none⟩]⟩,
  ⟨0x934, 1, [⟨0, 5, .rw, .l, 0, none⟩]⟩]

def swTable4 : List RegDesc := [
  ⟨0x938, 1, [⟨0, 28, .ro, .h, 0, none⟩,
    ⟨28, 4, .ro, .h, 0, none⟩]⟩,
  ⟨0x940, 1, [⟨0, 1, .rw, .l, 0, none⟩,
    ⟨1, 1, .rw, .l, 0, none⟩,
    ⟨2, 4, .rw, .l, 0, some (0, 9)⟩,
    ⟨8, 8, .rw, .l, 0, none⟩,
    ⟨16, 8, .rw, .l, 0, none⟩]⟩,
  ⟨0x944, 1, [⟨0, 8, .ro, .h, 0, none⟩,
    ⟨8, 8, .ro, .h, 0, none⟩,
    ⟨16, 8, .ro, .h, 0, none⟩,
    ⟨24, 8, .ro, .h, 0, none⟩]⟩,
  ⟨0x950, 1, [⟨0, 8, .rw, .l, 0, none⟩]⟩,
  ⟨0x954, 1, [⟨0, 23, .ro, .h, 0, none⟩,
    ⟨31, 1, .ro, .h, 0, none⟩]⟩,
  ⟨0x960, 10, [⟨0, 32, .ro, .h, 0, none⟩]⟩,
  ⟨0x990, 1, [⟨0, 8, .ro, .h, 0, none⟩,
    ⟨8, 8, .ro, .h, 0, none⟩]⟩,
  ⟨0x994, 1, [⟨0, 32, .ro, .h, 0, none⟩]⟩,
  ⟨0x998, 1, [⟨0, 32, .ro, .h, 0, none⟩]⟩,
  ⟨0x9A0, 1, [⟨0, 20, .ro, .h, 0, none⟩]⟩,
  ⟨0x9A4, 1, [⟨0, 16, .ro, .h, 0, none⟩,
    ⟨16, 16, .ro, .h, 0, none⟩]⟩,
  ⟨0x9A8, 1, [⟨0, 8, .rw, .s, 64, some (16, 255)⟩]⟩,
  ⟨0x9AC, 1, [⟨0, 32, .ro, .h, 0, none⟩]⟩,
  ⟨0x9B0, 1, [⟨0, 32, .ro, .h, 0, none⟩]⟩,
  ⟨0x9B4, 1, [⟨0, 32, .ro, .h, 0, none⟩]⟩,
  ⟨0xA00, 64, [⟨0, 4, .rw, .l, 0, none⟩,
    ⟨4, 5, .rw, .s, 0, none⟩,
    ⟨16, 8, .ro, .h, 0, none⟩,
    ⟨24, 1, .ro, .h, 0, none⟩,
    ⟨25, 1, .ro, .h, 0, none⟩,
    ⟨26, 1, .ro, .h, 0, none⟩,
    ⟨27, 1, .ro, .h, 0, none⟩,
    ⟨28, 1, .w1c, .h, 0, none⟩]⟩,
  ⟨0xB00, 1, [⟨0, 4, .rw, .l, 0, none⟩]⟩,
  ⟨0xB04, 1, [⟨0, 32, .rc, .h, 0, none⟩]⟩,
  ⟨0xB08, 1, [⟨0, 10, .wo, .l, 0, none⟩]⟩,
  ⟨0xB10, 2, [⟨0, 32, .w1c, .h, 0, none⟩]⟩]

def swTable5 : List RegDesc := [
  ⟨0xB18, 2, [⟨0, 32, .ro, .h, 0, none⟩]⟩,
  ⟨0xC00, 1, [⟨0, 2, .ro, .h, 0, none⟩,
    ⟨2, 1, .ro, .h, 0, none⟩,
    ⟨3, 16, .ro, .h, 0, none⟩,
    ⟨19, 13, .ro, .h, 0, none⟩]⟩,
  ⟨0xC04, 1, [⟨0, 32, .ro, .h, 0, none⟩]⟩,
  ⟨0xC08, 1, [⟨0, 4, .ro, .h, 0, none⟩,
    ⟨4, 4, .ro, .h, 0, none⟩,
    ⟨31, 1, .w1c, .h, 0, none⟩]⟩]

/-- Swath (Tables 5-10, 7-9, 7-10, 8-11 to 8-14, 9-6, 9-7, 10-4, 10-5, 11-12, 16-7, 18-4). -/
def swRegs : List RegDesc :=
  swTable0 ++ swTable1 ++ swTable2 ++ swTable3 ++ swTable4 ++ swTable5

end Sys2Proof.Machine
end

