-- ==== Sys2Proof/Machine/Regs.lean ====
section
/-!
DEFINITION. The management register space (chapter "Register map"): where each block lies, which
register an address names, its reset value, and reading and changing registers and their fields.
-/
namespace Sys2Proof.Machine

/-! ### Blocks (R595, R596) -/

def Base.glb : Nat := 0x000000
def Base.pwr : Nat := 0x010000
def Base.irq : Nat := 0x020000
def Base.cal : Nat := 0x030000
def Base.prt (p : PortId) : Nat := 0x040000 + 0x1000 * p.idx
def Base.ses : Nat := 0x050000
def Base.pol : Nat := 0x060000
def Base.dsp : Nat := 0x070000
def Base.sw (n : Fin 16) : Nat := 0x100000 + 0x10000 * n.val

/-- The span of offsets in which an address lies: its block's table, the block's base and the span's
last offset (Table 18-1). None for an unassigned address. -/
def spanOf (a : Nat) : Option (List RegDesc × Nat) :=
  if a ≤ 0x21C then some (glbRegs, Base.glb)
  else if 0x700 ≤ a ∧ a ≤ 0x714 then some (glbRegs, Base.glb)
  else if 0x800 ≤ a ∧ a ≤ 0x84C then some (glbRegs, Base.glb)
  else if 0x900 ≤ a ∧ a ≤ 0xA34 then some (glbRegs, Base.glb)
  else if 0x10000 ≤ a ∧ a ≤ 0x10058 then some (pwrRegs, Base.pwr)
  else if 0x20000 ≤ a ∧ a ≤ 0x207FC then some (irqRegs, Base.irq)
  else if 0x30000 ≤ a ∧ a ≤ 0x30130 then some (calRegs, Base.cal)
  else if 0x40000 ≤ a ∧ a ≤ 0x40484 then some (prtRegs, 0x40000)
  else if 0x41000 ≤ a ∧ a ≤ 0x41484 then some (prtRegs, 0x41000)
  else if 0x42000 ≤ a ∧ a ≤ 0x42484 then some (prtRegs, 0x42000)
  else if 0x50000 ≤ a ∧ a ≤ 0x50214 then some (sesRegs, Base.ses)
  else if 0x60000 ≤ a ∧ a ≤ 0x6021C then some (polRegs, Base.pol)
  else if 0x70100 ≤ a ∧ a ≤ 0x72FFC then some (dspRegs, Base.dsp)
  else if 0x100000 ≤ a ∧ a < 0x200000 ∧ a % 0x10000 ≤ 0xC08 then
    some (swRegs, a - a % 0x10000)
  else none

/-- The offset under which a register's description is listed: the sixteen latency histograms of the
dispatcher block repeat every 0x100 (Table 18-5). -/
def descOffset (base off : Nat) : Nat :=
  if base = Base.dsp ∧ 0x2000 ≤ off then 0x2000 + off % 0x100 else off

/-- The description of the register at an offset. -/
def descAt (off : Nat) : List RegDesc → Option RegDesc
  | [] => none
  | r :: t => if r.off ≤ off ∧ off < r.off + 4 * r.count then some r else descAt off t

/-- The register an address names; none when its table names none (reserved, R597). -/
def regDesc (a : Nat) : Option RegDesc :=
  match spanOf a with
  | none => none
  | some (t, base) => descAt (descOffset base (a - base)) t

/-- Table 11-6: the target a shared source takes when the settings image names none. -/
def defaultTarget (s : Nat) : Nat :=
  if s ∈ [0x02, 0x0A, 0x12, 0x03, 0x0B, 0x13, 0x20, 0x28, 0x29, 0x30, 0x31, 0x32, 0x80, 0x82, 0x88,
      0x8B, 0x91, 0x92, 0x93, 0x94, 0x97, 0xA0, 0xA1, 0xA2, 0xA4, 0xA8, 0xA9, 0xAA, 0xAB,
      0xB0, 0xB1, 0xB2, 0xB3, 0xB4, 0xB5] then 17
  else if 0x40 ≤ s ∧ s < 0x60 then 17
  else if 0x70 ≤ s ∧ s < 0x80 then 17
  else 0

/-- The word the fields of a description reset to. -/
def fieldsReset : List FieldDesc → Word
  | [] => 0
  | f :: t => withBits (fieldsReset t) f.lo f.width f.reset

/-- A register's reset value (the Reset column; C-only fields of ports A and B hold 0, and
PRT_C_STEP has its own values, Table 2-18). -/
def resetWord (a : Nat) : Word :=
  match regDesc a with
  | none => 0
  | some r =>
    let w := fieldsReset r.fields
    if a = 0x4204C then withBits (withBits w 0 8 40) 16 8 80
    else if a = 0x4004C ∨ a = 0x4104C then withBits w 24 8 0
    else if 0x20400 ≤ a ∧ a < 0x20800 then withBits w 4 5 (defaultTarget ((a - 0x20400) / 4))
    else w

/-! ### Reading and changing -/

/-- The stored word of a register. -/
def Dev.reg (d : Dev) (a : Nat) : Word := (look a d.regs).getD (resetWord a)

/-- Store a word in a register. -/
def Dev.setReg (d : Dev) (a : Nat) (w : Word) : Dev :=
  { d with regs := putD a (resetWord a) w d.regs }

/-- A field of a block's register. -/
def Dev.fld (d : Dev) (base : Nat) (f : Fld) : Nat := bitsOf (d.reg (base + f.off)) f.lo f.width

/-- Change a field. -/
def Dev.setFld (d : Dev) (base : Nat) (f : Fld) (v : Nat) : Dev :=
  d.setReg (base + f.off) (withBits (d.reg (base + f.off)) f.lo f.width v)

/-- A one-bit field. -/
def Dev.flag (d : Dev) (base : Nat) (f : Fld) : Bool := d.fld base f != 0

/-- Some counter of a range of addresses has bit 31 set (kind C half-range sources of Table 11-6). -/
def Dev.halfIn (d : Dev) (lo hi : Nat) : Bool :=
  d.regs.any (fun e => decide (lo ≤ e.1 ∧ e.1 ≤ hi) && e.2.getLsbD 31)

/-! ### Registers kept per requester path (R601, R602) -/

/-- Number of a requester path. -/
def pathIdx : ReqPath → Nat
  | .steward => 0 | .session => 1 | .notify => 2

/-- Key of a per-path register. -/
def pathKey (p : ReqPath) (a : Nat) : Nat := pathIdx p * 0x1000000 + a

/-- A select, address or latched register of one path; 0 until first written or latched. -/
def Dev.pathReg (d : Dev) (p : ReqPath) (a : Nat) : Word := lookD (pathKey p a) 0 d.prs

def Dev.setPathReg (d : Dev) (p : ReqPath) (a : Nat) (w : Word) : Dev :=
  { d with prs := putD (pathKey p a) 0 w d.prs }

end Sys2Proof.Machine
end

