-- ==== Sys2Proof/Machine/Ops.lean ====
section
/-!
DEFINITION. The operations every chapter shares: reaching ports, sessions, commands and swaths;
counting; raising interrupt sources (R391, R395); reporting events to the recorder (R502); calendar
stamps and trust.
-/
namespace Sys2Proof.Machine

/-! ### Reaching parts of the drive -/

def Dev.port (d : Dev) : PortId → PortSt
  | .a => d.portA | .b => d.portB | .c => d.portC

def Dev.setPort (d : Dev) (p : PortId) (x : PortSt) : Dev :=
  match p with
  | .a => { d with portA := x } | .b => { d with portB := x } | .c => { d with portC := x }

def Dev.updPort (d : Dev) (p : PortId) (f : PortSt → PortSt) : Dev := d.setPort p (f (d.port p))

def Dev.ctx (d : Dev) (sid : Nat) : Option Ctx := look sid d.ses.ctx

def Dev.setCtx (d : Dev) (sid : Nat) (c : Ctx) : Dev :=
  { d with ses := { d.ses with ctx := put sid c d.ses.ctx } }

def Dev.updCtx (d : Dev) (sid : Nat) (f : Ctx → Ctx) : Dev :=
  { d with ses := { d.ses with ctx := adjust sid f d.ses.ctx } }

def Dev.freeCtx (d : Dev) (sid : Nat) : Dev :=
  { d with ses := { d.ses with ctx := del sid d.ses.ctx } }

def Dev.updDisp (d : Dev) (f : Disp → Disp) : Dev := { d with disp := f d.disp }

def Dev.cmd (d : Dev) (cid : Nat) : Option Cmd := look cid d.disp.cmds

def Dev.updCmd (d : Dev) (cid : Nat) (f : Cmd → Cmd) : Dev :=
  d.updDisp fun x => { x with cmds := adjust cid f x.cmds }

def Dev.sw (d : Dev) (n : Fin 16) : Swath := d.sws.get n

def Dev.setSw (d : Dev) (n : Fin 16) (s : Swath) : Dev := { d with sws := d.sws.set n.val s n.isLt }

def Dev.updSw (d : Dev) (n : Fin 16) (f : Swath → Swath) : Dev := d.setSw n (f (d.sw n))

def Dev.slot (d : Dev) (s : Nat) : Slot := (look s d.disp.plc).getD (Slot.home0 s)

/-! ### Pins (R182, R262) -/

/-- The pieces of a run of bytes, in units of a size. -/
def unitsIn (size start bytes : Nat) : List Nat :=
  if bytes = 0 then []
  else (List.range ((start + bytes - 1) / size - start / size + 1)).map (start / size + ·)

/-- First byte of an extent's slots in the logical space: slots of 4,112 bytes back to back (R320). -/
def Extent.start (e : Extent) : Nat := e.loc * 512 + e.skip * 4112

/-- The 512-byte units of an extent's slots. -/
def Extent.cells (e : Extent) : List Nat := unitsIn 512 e.start (e.sheaves * 4112)

/-- Bytes of a key record before its tag and seal block: 64, the key padded to 8, 16 for each extent (R323). -/
def recordLen (keyLen extents : Nat) : Nat := 64 + (keyLen + 7) / 8 * 8 + 16 * extents

/-- Bytes of a sealed record (Table 9-3). -/
def sealedLen (keyLen extents : Nat) : Nat := recordLen keyLen extents + 16 + 8 + 16 * extents

/-- The 512-byte units a read pins. -/
def Snap.cells (s : Snap) (keyLen : Nat) : List Nat :=
  unitsIn 512 (s.recLoc * 512) (sealedLen keyLen s.extents.length) ++ s.extents.flatMap Extent.cells

/-- A read pins a 512-byte unit of a swath's logical space. -/
def Dev.pinsCell (d : Dev) (n : Fin 16) (u : Nat) : Bool :=
  d.disp.cmds.any fun e =>
    match e.2.snap with
    | some s => s.swath == n && s.found && (s.cells e.2.key.length).contains u
    | none => false

/-- Freed units of the value cache that no read pins any more leave it (R262). -/
def Dev.vcSweep (d : Dev) (n : Fin 16) : Dev :=
  d.updSw n fun s => { s with vc := s.vc.filter fun e => !e.dead || d.pinsCell n e.unit }

/-- A command leaves the drive, and its pins go. -/
def Dev.dropCmd (d : Dev) (cid : Nat) : Dev :=
  let pins := (d.cmd cid).bind fun c => if isRead c.op then c.snap else none
  let d := d.updDisp fun x => { x with cmds := del cid x.cmds, wait := x.wait.filter (· != cid),
                                       inbox := x.inbox.filter (· != cid) }
  match pins with
  | some s => d.vcSweep s.swath
  | none => d

/-- All swaths, in number order. -/
def allSwaths : List (Fin 16) := [0, 1, 2, 3, 4, 5, 6, 7, 8, 9, 10, 11, 12, 13, 14, 15]

def allPorts : List PortId := [.a, .b, .c]

/-! ### A port's addresses (R22, R23) -/

/-- A port's MAC address (R22). -/
def Dev.macOf (d : Dev) (p : PortId) : Nat := d.boot.mac.toNat + p.idx

/-- The link-local address by the modified EUI-64 rule (R23). -/
def Dev.linkLocal (d : Dev) (p : PortId) : Nat :=
  let m := d.macOf p
  let hi := m / 2 ^ 24
  let lo := m % 2 ^ 24
  0xFE80 * 2 ^ 112 + ((hi ^^^ 0x020000) * 2 ^ 40 + 0xFFFE * 2 ^ 24 + lo)

/-- PRT_x_IPV4_ADDR; 0 means none. -/
def Dev.ipv4 (d : Dev) (p : PortId) : Nat := d.fld (Base.prt p) F.PRT_IPV4_ADDR_ADDR

/-- The second IPv6 address, PRT_x_IPV6_G0 most significant; 0 means none. -/
def Dev.secondIp (d : Dev) (p : PortId) : Nat :=
  (List.range 4).foldl (fun n k => n * 2 ^ 32 + d.fld (Base.prt p) (F.PRT_IPV6_G_ADDR.at k)) 0

/-- An IPv4 address in the form ::FFFF:a.b.c.d. -/
def mapped (v4 : Nat) : Nat := 0xFFFF * 2 ^ 32 + v4

/-- The solicited-node multicast address of an IPv6 address. -/
def solicitedOf (a : Nat) : Nat := 0xFF02 * 2 ^ 112 + 0x1FF000000 + a % 2 ^ 24

/-- Which of the port's addresses a packet names (R33, R34). -/
def Dev.dstIp (d : Dev) (p : PortId) (h : IpHdr) : DstIp :=
  let a := h.dst.toNat
  let g := d.secondIp p
  if !h.v6 then (if d.ipv4 p ≠ 0 ∧ a = mapped (d.ipv4 p) then .v4 else .other)
  else if a = d.linkLocal p then .linkLocal
  else if g ≠ 0 ∧ a = g then .second
  else if a = solicitedOf (d.linkLocal p) ∨ (g ≠ 0 ∧ a = solicitedOf g) then .solicited
  else .other

/-- An IPv6 address is one of the port's own two. -/
def Dev.ownIp6 (d : Dev) (p : PortId) (a : Nat) : Bool :=
  a == d.linkLocal p || (d.secondIp p != 0 && a == d.secondIp p)

/-! ### Time -/

/-- The calendar's stamp (R138). -/
def Dev.stamp (d : Dev) : Nat := d.cal.tick

/-- Whole seconds of the calendar. -/
def Dev.calSec (d : Dev) : Nat := d.cal.tick / 1024

/-- Trust state of Table 14-1. -/
def Dev.trust (d : Dev) : Nat := d.fld Base.cal F.CAL_STAT_TRUST

def Dev.trusted (d : Dev) : Bool := d.trust != 0

/-- The PTP time counter in nanoseconds. -/
def Dev.ptpNow (d : Dev) : Nat := d.cal.ptpSec * 1000000000 + d.cal.ptpNs

/-! ### Functions under reset and frozen functions -/

/-- Bit of a function in GLB_RST_STAT (Table 11-9); DRIVE has none. -/
def fnBit : Fn → Option Nat
  | .swath n => some n.val
  | .port p => some (16 + p.idx)
  | .sessionEngine => some 19
  | .policyMatcher => some 20
  | .dispatcher => some 21
  | .notification => some 22
  | .eventRecorder => some 23
  | .drive => none

def Dev.resetting (d : Dev) (f : Fn) : Bool :=
  match fnBit f with
  | some k => bit (d.fld Base.glb F.GLB_RST_STAT_ACTIVE) k
  | none => false

/-- The swath is frozen (R380). -/
def Dev.swFrozen (d : Dev) (n : Fin 16) : Bool := bit (d.fld Base.glb F.GLB_FRZ_STAT_SWATHS) n.val

def Dev.fnFrozen (d : Dev) : Fn → Bool
  | .swath n => d.swFrozen n
  | .notification => d.flag Base.glb F.GLB_FRZ_STAT_NOTIFICATION
  | .eventRecorder => d.flag Base.glb F.GLB_FRZ_STAT_EVENT_RECORDER
  | _ => false

/-! ### Interrupt sources (R389 to R395) -/

/-- A source: shared by its ID, private of a target by bank and place. -/
def shared (s : Nat) : Nat := s
def priv (target p : Nat) : Nat := 1024 + 64 * target + p

/-- Private source p of a swath's bank. -/
def privSw (n : Fin 16) (p : Nat) : Nat := priv (n.val + 1) p

def IrqSrc.idle : IrqSrc :=
  { event := false, level := false, latch := false, service := false, by_ := 0, events := 0,
    storm := false, claims := 0 }

def Dev.src (d : Dev) (k : Nat) : IrqSrc := lookD k IrqSrc.idle d.irq.src

def Dev.setSrc (d : Dev) (k : Nat) (x : IrqSrc) : Dev :=
  { d with irq := { d.irq with src := putD k IrqSrc.idle x d.irq.src } }

/-- The register of a source (Tables 11-10 and 11-12). -/
def srcReg (k : Nat) : Nat :=
  if k < 1024 then 0x20400 + 4 * k
  else
    let t := (k - 1024) / 64
    let p := (k - 1024) % 64
    if t = 0 then 0x20100 + 4 * p
    else if t = 17 then 0x20200 + 4 * p
    else 0x100000 + 0x10000 * (t - 1) + 0xA00 + 4 * p

/-- The ID a source has at its target (R389). -/
def srcId (k : Nat) : Nat := if k < 1024 then k else 0x100 + (k - 1024) % 64

/-- The source an ID names at a target. -/
def srcOfId (target id : Nat) : Nat := if id < 0x100 then id else priv target (id - 0x100)

/-- The target of a source (R390): a TARGET above 17 counts as 0. -/
def Dev.srcTarget (d : Dev) (k : Nat) : Nat :=
  if k < 1024 then
    let t := bitsOf (d.reg (srcReg k)) 4 5
    if 17 < t then 0 else t
  else (k - 1024) / 64

def Dev.srcPrio (d : Dev) (k : Nat) : Nat := bitsOf (d.reg (srcReg k)) 0 4

/-- The threshold of a target. -/
def Dev.thresh (d : Dev) (t : Nat) : Nat :=
  if t = 0 then d.fld Base.irq F.IRQ_T0_THRESH_THRESH
  else if t = 17 then d.fld Base.irq F.IRQ_T17_THRESH_THRESH
  else bitsOf (d.reg (0x100000 + 0x10000 * (t - 1) + 0xB00)) 0 4

/-- Shared sources of kind C in Table 11-6. -/
def kindC (s : Nat) : Bool :=
  s ∈ [0x01, 0x09, 0x11, 0x03, 0x0B, 0x13, 0x18, 0x20, 0x23, 0x28, 0x2A, 0x2B, 0x33, 0x88, 0x89] ||
    decide (0x40 ≤ s ∧ s < 0x60)

/-- Private sources of a swath of kind C in Table 11-7. -/
def kindCPriv (p : Nat) : Bool := p ∈ [0, 2, 6, 10, 14, 15, 16]

/-- Overflow buckets in use (R253). -/
def Swath.ovfUsed (s : Swath) : Nat := (s.links.map fun e => e.2.chain.length).sum

/-- The condition of a source of kind C. -/
def Dev.condOf (d : Dev) (s : Nat) : Bool :=
  if s < 0x18 then
    let p : PortId := if s / 8 = 0 then .a else if s / 8 = 1 then .b else .c
    if s % 8 = 1 then
      (d.fld (Base.prt p) F.PRT_CNT_HALF_HALF &&& d.fld (Base.prt p) F.PRT_CNT_HALF_EN_EN) != 0
    else d.flag (Base.prt p) F.PRT_GCL_CTRL_GCL_ERR
  else if s = 0x18 then d.halfIn 0x70808 0x70810
  else if s = 0x20 then d.flag Base.ses F.SES_FRZ_SID_VALID
  else if s = 0x23 then d.halfIn 0x50100 0x50130
  else if s = 0x28 then
    d.flag Base.pol F.POL_TC_STAT_ERR || d.flag Base.pol F.POL_PA_STAT_ERR ||
      d.flag Base.glb F.GLB_SRAM_LAST_VALID
  else if s = 0x2A then d.flag Base.pol F.POL_TC_LAST_VALID
  else if s = 0x2B then d.halfIn 0x60200 0x6021C
  else if s = 0x33 then d.halfIn 0x70208 0x70208 || d.halfIn 0x71100 0x72FFC
  else if 0x40 ≤ s ∧ s < 0x50 then
    bitsOf (d.reg (0x100000 + 0x10000 * (s - 0x40) + 0x408)) 30 1 != 0
  else if 0x50 ≤ s ∧ s < 0x60 then bit (d.fld Base.glb F.GLB_FRZ_STAT_SWATHS) (s - 0x50)
  else if s = 0x88 then d.boot.keys.any fun e => e.2.unwrapBad
  else if s = 0x89 then
    d.flag Base.glb F.GLB_FRZ_STAT_NOTIFICATION || d.flag Base.glb F.GLB_FRZ_STAT_EVENT_RECORDER
  else false

/-- The condition of private source p of kind C of a swath. -/
def Dev.condPriv (d : Dev) (n : Fin 16) (p : Nat) : Bool :=
  let b := Base.sw n
  let s := d.sw n
  match p with
  | 0 => d.flag b F.SW_MEM_UE_INFO_VALID
  | 2 => decide (256 ≤ s.remap.length)
  | 6 => s.fallow
  | 10 => decide (16777216 * 9 < s.ovfUsed * 10)
  | 14 => d.flag b F.SW_CIP_STAT_WARN
  | 15 => d.flag b F.SW_CIP_STAT_SPENT
  | 16 => d.halfIn (b + 0x100) (b + 0x17C) || d.halfIn (b + 0x540) (b + 0x550) ||
      d.halfIn (b + 0x680) (b + 0x6B4) || d.halfIn (b + 0x840) (b + 0x850) ||
      d.halfIn (b + 0x960) (b + 0x998) || d.halfIn (b + 0x9AC) (b + 0x9B4)
  | _ => false

/-- The function that raises a shared source; its sources stay low while it is under reset (R406). -/
def srcFn (s : Nat) : Option Fn :=
  if s < 8 then some (.port .a) else if s < 0x10 then some (.port .b)
  else if s < 0x18 then some (.port .c)
  else if 0x20 ≤ s ∧ s < 0x28 then some .sessionEngine
  else if 0x28 ≤ s ∧ s < 0x30 then some .policyMatcher
  else if s = 0x18 ∨ (0x30 ≤ s ∧ s < 0x38) then some .dispatcher
  else if s = 0xA3 ∨ s = 0xA4 then some .eventRecorder
  else if 0x40 ≤ s ∧ s < 0x70 then some (.swath ⟨s % 16, Nat.mod_lt _ (by decide)⟩)
  else none

/-- A swath number from a number below 16; 0 above. -/
def finSw (n : Nat) : Fin 16 := if h : n < 16 then ⟨n, h⟩ else 0

/-- The level of a source's signal (R391, step 5 of R406). -/
def Dev.signal (d : Dev) (k : Nat) : Bool :=
  if k < 1024 then
    let raw := if kindC k then d.condOf k || (d.src k).level else (d.src k).event
    match srcFn k with
    | some f => raw && !d.resetting f
    | none => raw
  else
    let t := (k - 1024) / 64
    let p := (k - 1024) % 64
    if 1 ≤ t ∧ t ≤ 16 ∧ kindCPriv p then d.condPriv (finSw (t - 1)) p else (d.src k).event

/-- A source is asserted while its signal is high or its latch is set (R391). -/
def Dev.asserted (d : Dev) (k : Nat) : Bool := d.signal k || (d.src k).latch

/-- PENDING of R392. -/
def Dev.srcPending (d : Dev) (k : Nat) : Bool := d.asserted k && !(d.src k).service

/-- Deliverable (R392). -/
def Dev.deliverable (d : Dev) (k : Nat) : Bool :=
  d.srcPending k && decide (0 < d.srcPrio k) && decide (d.thresh (d.srcTarget k) < d.srcPrio k) &&
    !(d.src k).storm

/-- Count an assertion of a source in SERVICE (R395). -/
def countAssert (x : IrqSrc) : IrqSrc :=
  if x.service then { x with events := satAdd x.events 1 255 } else x

/-- An event of a source of kind E: its event bit is set, and an assertion in SERVICE counts, even
when it finds the bit set (R391, R395). The controller samples the signal high, so the latch that
the edge set is clear again. -/
def Dev.raise (d : Dev) (k : Nat) : Dev :=
  d.setSrc k { (countAssert (d.src k)) with event := true, latch := false }

/-- The condition of a source of kind C has just risen. -/
def Dev.condRose (d : Dev) (k : Nat) : Dev := d.setSrc k (countAssert (d.src k))

/-- An edge that the controller has not sampled: it sets the latch (R391). -/
def Dev.pulse (d : Dev) (k : Nat) : Dev :=
  d.setSrc k { (countAssert (d.src k)) with latch := !d.signal k }

/-- Completion of a source in SERVICE (R396): with EVENTS not 0 its latch is set, and a signal that is high clears
it in the next cycle (R391). -/
def Dev.completeSrc (d : Dev) (k : Nat) : Dev :=
  let x := d.src k
  d.setSrc k { x with service := false, by_ := 0, latch := (x.latch || x.events != 0) && !d.signal k }

/-! ### Counting (R77, R395) -/

/-- The half-range source that a statistics counter belongs to (Tables 11-6 and 11-7), the ports' apart. -/
def halfSrc (a : Nat) : Option Nat :=
  if 0x70808 ≤ a ∧ a ≤ 0x70810 then some (shared 0x18)
  else if 0x50100 ≤ a ∧ a ≤ 0x50130 then some (shared 0x23)
  else if 0x60200 ≤ a ∧ a ≤ 0x6021C then some (shared 0x2B)
  else if a = 0x70208 ∨ (0x71100 ≤ a ∧ a ≤ 0x72FFC) then some (shared 0x33)
  else if 0x100000 ≤ a ∧ a < 0x200000 then some (priv ((a - 0x100000) / 0x10000 + 1) 16)
  else none

/-- A register takes a new count; where that makes its half-range source rise, the assertion counts (R395). -/
def Dev.countTo (d : Dev) (a : Nat) (w : Word) : Dev :=
  let d' := d.setReg a w
  if !(d.reg a).getLsbD 31 && w.getLsbD 31 then
    match halfSrc a with
    | some k => if !d.signal k && d'.signal k then d'.condRose k else d'
    | none => d'
  else d'

/-- Count n in a register whose half-range source has a latch of its own (a port's) or none. -/
def Dev.tally (d : Dev) (base : Nat) (f : Fld) (n : Nat) : Dev :=
  d.setReg (base + f.off) (d.reg (base + f.off) + BitVec.ofNat 32 n)

/-- Count once in a statistics counter: it rolls over from 0xFFFF_FFFF to 0 (R77). -/
def Dev.bump (d : Dev) (base : Nat) (f : Fld) : Dev :=
  d.countTo (base + f.off) (d.reg (base + f.off) + 1)

/-- Count n times. -/
def Dev.bumpBy (d : Dev) (base : Nat) (f : Fld) (n : Nat) : Dev :=
  d.countTo (base + f.off) (d.reg (base + f.off) + BitVec.ofNat 32 n)

/-- A placement entry changes; a change of OWNER, PARTNER or STATE counts in DSP_PLC_GEN (R249). -/
def Dev.setSlot (d : Dev) (s : Nat) (x : Slot) : Dev :=
  let old := d.slot s
  let d := d.updDisp fun y => { y with plc := put s x y.plc }
  let d := if old.owner = x.owner then d else d.setFld (Base.sw x.owner) F.SW_MEM_CHK_CTRL_KILL_EN 0
  if old.owner = x.owner ∧ old.partner = x.partner ∧ old.st = x.st then d else d.bump Base.dsp F.DSP_PLC_GEN_GEN

/-! ### Notifications that lose their session (R405) -/

/-- A NOTIFY that has not been sent. -/
def OutFrag.ntfWaits (f : OutFrag) : Bool := f.op == 0x28 && f.sent == 0

/-- NOTIFY messages not yet sent go; the numbers of those at the end of the series are free again (DESIGN CHOICE,
log entry 117: the spec does not say what becomes of their numbers). -/
def Ctx.dropNotifies (c : Ctx) : Ctx :=
  { c with
    out := c.out.filter fun f => !f.ntfWaits,
    txNext := (c.out.filter fun f => f.ntfWaits && f.epoch == c.epoch).foldr
      (fun f n => if f.seq + 1 = n then f.seq else n) c.txNext }

/-- NOTIFY messages of a session that have not been sent are dropped. -/
def Dev.dropNotifies (d : Dev) (sid : Nat) : Dev :=
  let gone (ep seq : Nat) : Bool := ((d.ctx sid).map fun c => c.out.any fun f =>
    f.ntfWaits && f.seq == seq && f.epoch == ep).getD false
  (allPorts.foldl (fun d p => d.updPort p fun x => { x with
    txq := x.txq.filter fun e => match e.item with
      | .skp s ep seq _ => !(s == sid && gone ep seq)
      | _ => true }) d).updCtx sid Ctx.dropNotifies

/-- The engine completes the sources whose NOTIFY a session carries, counts them, and sends nothing that it has
not sent (R405). A frozen engine's state stays as it stood (R380). -/
def Dev.ntfGone (d : Dev) (sid : Nat) : Dev :=
  if d.fnFrozen .notification then d else
  let gone := d.irq.out.filter fun o => o.sid == sid
  let d := ({ d with irq := { d.irq with out := d.irq.out.filter fun o => o.sid != sid } }).dropNotifies sid
  gone.foldl (fun d o => (d.completeSrc (srcOfId 17 o.src)).bump Base.irq F.IRQ_NTF_TIMEOUT_COUNT) d

/-- Set a register field that is the condition of a source of kind C, counting a rise. -/
def Dev.setCond (d : Dev) (base : Nat) (f : Fld) (v k : Nat) : Dev :=
  let d' := d.setFld base f v
  if !d.signal k && d'.signal k then d'.condRose k else d'

/-! ### Events to the recorder (R502) -/

/-- Units of chapter 14. -/
def Unit.steward : Nat := 0
def Unit.port (p : PortId) : Nat := 1 + p.idx
def Unit.session : Nat := 4
def Unit.matcher : Nat := 5
def Unit.dispatcher : Nat := 6
def Unit.swath (n : Fin 16) : Nat := 16 + n.val
def Unit.notify : Nat := 32
def Unit.recorder : Nat := 33
def Unit.power : Nat := 34
def Unit.calendar : Nat := 35
def Unit.inputs : Nat := 36
def Unit.chain : Nat := 37

/-- One event is counted as lost. -/
def Dev.loseEvent (d : Dev) : Dev :=
  let d := d.tally Base.cal F.EVR_LOST_COUNT 1
  { d with evr := { d.evr with lostPend := d.evr.lostPend + 1 } }

/-- Report an event: it enters the intake, or is lost when the intake is full or the recorder is
frozen or under reset (R502). -/
def Dev.report (d : Dev) (code unit sev value detail : Nat) : Dev :=
  if 256 ≤ d.evr.intake.length || d.fnFrozen .eventRecorder || d.resetting .eventRecorder then
    d.loseEvent
  else
    { d with evr := { d.evr with
        intake := d.evr.intake ++ [⟨code, unit, sev, value % 2 ^ 32, detail % 2 ^ 32, d.cal.tick, !d.trusted⟩] } }

/-- Change of the trust state, with its source and event (R490). -/
def Dev.setTrust (d : Dev) (t : Nat) : Dev :=
  let old := d.trust
  if old = t then d
  else
    let d := d.setFld Base.cal F.CAL_STAT_TRUST t
    (d.raise (shared 0xA0)).report 0x0101 Unit.calendar (if old < t then 1 else 2) t old

/-! ### Port counters (R77, R78) -/

/-- Count n in counter k of a port. When bit 31 rises, CNT_HALF is set and, when enabled, the
counter-half source rises (R78). -/
def Dev.portCount (d : Dev) (p : PortId) (k n : Nat) : Dev :=
  let f := F.PRT_CNT_COUNT.at k
  let b := Base.prt p
  let before := d.fld b f
  let d := d.tally b f n
  if before < 2 ^ 31 ∧ 2 ^ 31 ≤ d.fld b f then
    let half := d.fld b F.PRT_CNT_HALF_HALF
    d.setCond b F.PRT_CNT_HALF_HALF (setBit half k true) (0x01 + 8 * p.idx)
  else d

/-! ### Swath state as others see it -/

/-- Slots whose OWNER is the swath. -/
def Dev.ownedSlots (d : Dev) (n : Fin 16) : Nat :=
  ((List.range 256).filter fun s => (d.slot s).owner == n).length

def Dev.ownsSlots (d : Dev) (n : Fin 16) : Bool :=
  (List.range 256).any fun s => (d.slot s).owner == n

/-- An in-service test of kind 1 or 2 holds the swath (R579). -/
def Dev.underTest (d : Dev) (n : Fin 16) : Bool :=
  d.flag (Base.sw n) F.SW_TST_STAT_ACTIVE && decide (d.fld (Base.sw n) F.SW_TST_STAT_TEST ≤ 2)

/-- A swath carries out commands. -/
def Dev.swRuns (d : Dev) (n : Fin 16) : Bool := !d.swFrozen n && !d.resetting (.swath n)

/-- The swath takes commands. -/
def Dev.online (d : Dev) (n : Fin 16) : Bool :=
  (d.sw n).ready && !(d.sw n).failed && !(d.sw n).leftOff && !d.swFrozen n && !d.resetting (.swath n) &&
    !d.underTest n && !d.flag (Base.sw n) F.SW_IDX_REBUILD_ACTIVE && d.fld Base.pwr F.PWR_HOLD_HEALTH != 3

/-- SWATH_STATE of Table 4-15; in power wait every swath reports 1 (R414). -/
def Dev.swathState (d : Dev) (n : Fin 16) : Nat :=
  if d.pw.waiting then 1
  else if d.swFrozen n then 2
  else if d.resetting (.swath n) then 3
  else if d.underTest n then 4
  else if !d.online n then 1
  else if (d.sw n).fallow then 6
  else if !d.ownsSlots n then 5
  else 0

end Sys2Proof.Machine
end

