-- ==== Sys2Proof/Machine/Seal.lean ====
section
/-!
DEFINITION. The at-rest cipher's formats (chapter "Encryption at rest"): nonces and associated data of
sheaves (Tables 9-1 and 9-2), key records in clear and in sealed form (Tables 7-5, 9-3 and 9-4), and when a
stored tag verifies.
-/
namespace Sys2Proof.Machine

/-! ### The storage KEK (R316) -/

/-- The storage KEK: HKDF-SHA-384 of the device secret in fuses under a KEK salt. The empty info is DEDUCED (log
entry 104). -/
def storageKek (salt : BitVec 256) : List Byte :=
  hkdfExpand (hkdfExtract (be 32 salt.toNat) ((List.range 32).map Config.deviceSecret)) [] 32

/-- The 40 bytes of a wrapped data key as written: AES-256 key wrap under the storage KEK. -/
def KeyCopy.written (c : KeyCopy) : List Byte :=
  (List.range 40).map (Config.wrapByte (storageKek c.salt) (be 32 c.key.toNat))

/-- A stored copy passes the integrity check of key unwrap under one of the two copies of the salt. That it passes under
no other KEK is taken of AES key wrap (PRESUMED, log entry 91). -/
def Boot.unwraps (b : Boot) (c : KeyCopy) : Bool := c.whole && (c.salt == b.saltA || c.salt == b.saltB)

/-- A data key written over both stored copies of the one before (R316, R336). -/
def DataKey.rewritten (k : DataKey) (salt key : BitVec 256) (gen : Nat) : DataKey :=
  let c : KeyCopy := { salt := salt, key := key, whole := true }
  { k with key := key, gen := gen, unwrapBad := false, copyA := c, copyB := c }

/-! ### Sheaves (R319 to R322) -/

/-- The nonce of Table 9-1: SWATH and COUNT in 8 bytes, then SHEAF. -/
def sealNonce (swath count sheaf : Nat) : List Byte := be 8 (swath % 16 * 2 ^ 60 + count % 2 ^ 60) ++ be 4 sheaf

/-- The associated data of a sheaf, 24 bytes (Table 9-2). -/
def sheafAad (hash : DWord) (sealVer sheaf len : Nat) : List Byte :=
  be 8 hash.toNat ++ be 8 sealVer ++ be 4 sheaf ++ be 4 len

/-- Plaintext bytes of sheaf i of a value. -/
def sheafLen (length i : Nat) : Nat := min 4096 (length - 4096 * i)

/-- Sheaves of a value. -/
def sheavesOf (length : Nat) : Nat := ceilDiv length 4096

/-- The data key of a key space (R314, R315). -/
def Dev.dataKey (d : Dev) (space : Nat) : BitVec 256 := ((look space d.boot.keys).map (·.key)).getD 0

def keyBytes (k : BitVec 256) : List Byte := be 32 k.toNat

/-- A sheaf's slot as it is stored: ciphertext, tag, and 0x00 up to 4,112 bytes (R320). -/
def SealId.sheaf (m : SealId) (value : List Byte) (i : Nat) : List Byte :=
  let len := sheafLen m.endAt i
  padTo 4112 (gcmSeal (keyBytes m.key) (sealNonce m.by_ m.cnt i) (sheafAad m.hash m.ver i len)
    (slice value (4096 * i) len))

/-- The extent of a sheaf. -/
def extentOf (xs : List Extent) (i : Nat) : Option Extent :=
  xs.find? fun e => decide (e.first ≤ i ∧ i < e.first + e.sheaves)

/-- The tag of stored sheaf i verifies: key, nonce and associated data are those under which it was sealed, so
it opens only as the sheaf of its key, version, position and length (R322). That no other tag verifies is taken
of AES-256-GCM (PRESUMED, log entry 91). -/
def Extent.opens (e : Extent) (key : BitVec 256) (hash : DWord) (length i : Nat) : Bool :=
  e.made.key == key && sealNonce e.made.by_ e.made.cnt i == sealNonce e.sealBy e.cnt i &&
    sheafAad e.made.hash e.made.ver i (sheafLen e.made.endAt i) == sheafAad hash e.sealVer i (sheafLen length i)

/-! ### Key records (R256, R323, R324) -/

/-- Fixed fields of a record with their CRC-32C (bytes 0 to 63 of Table 7-5). -/
def recordHead (type space keyLen extents rflags_ : Nat) (hash : DWord) (version length written retain rseq rule : Nat) :
    List Byte :=
  let h := be 1 type ++ be 1 space ++ be 2 keyLen ++ be 2 extents ++ be 2 rflags_ ++ be 8 hash.toNat ++
    be 8 version ++ be 4 length ++ zeros 4 ++ be 8 written ++ be 8 retain ++ be 8 rseq ++ be 4 rule
  h ++ be 4 (crc32c h).toNat

/-- The key padded to a multiple of 8, as a record holds it. -/
def padKey (key : List Byte) : List Byte := padTo ((key.length + 7) / 8 * 8) key

def KeyEnt.head (k : KeyEnt) : List Byte :=
  recordHead 1 k.space k.key.length k.extents.length (rflags k.held k.paired) k.hash k.version k.value.length
    k.written k.retain k.rseq k.rule

/-- KEY and the extent list, in ascending FIRST_SHEAF. -/
def KeyEnt.body (k : KeyEnt) : List Byte :=
  padKey k.key ++ k.extents.flatMap fun e => be 8 (e.start / 512) ++ be 4 e.first ++ be 4 e.sheaves

/-- The seal block of Table 9-4. -/
def KeyEnt.sealBlock (k : KeyEnt) (n : Fin 16) : List Byte :=
  (sealNonce n.val k.recSeal 0).take 8 ++
    k.extents.flatMap fun e => (sealNonce e.sealBy e.cnt 0).take 8 ++ be 8 e.sealVer

/-- A record in the sealed form of Table 9-3: its head in clear, the rest encrypted, the tag, the seal block. -/
def sealRecord (key : BitVec 256) (n : Fin 16) (count : Nat) (head body block : List Byte) : List Byte :=
  head ++ gcmSeal (keyBytes key) (sealNonce n.val count 0xFFFFFFFF) (head ++ block) body ++ block

/-- The key record as it is stored. -/
def KeyEnt.record (k : KeyEnt) (n : Fin 16) : List Byte :=
  sealRecord k.recKey n k.recSeal k.head k.body (k.sealBlock n)

def Tomb.head (t : Tomb) : List Byte := recordHead 2 t.space t.key.length 0 0 t.hash t.version 0 0 0 t.rseq 0x3FF

/-- The tombstone record as it is stored (R258). -/
def Tomb.record (t : Tomb) (n : Fin 16) : List Byte :=
  sealRecord t.recKey n t.recSeal t.head (padKey t.key) ((sealNonce n.val t.recSeal 0).take 8)

/-- Bytes of the sealed record of a key. -/
def KeyEnt.recLen (k : KeyEnt) : Nat := sealedLen k.key.length k.extents.length

/-- A stored record's tag verifies under the data key of its key space. -/
def Dev.recOpens (d : Dev) (k : KeyEnt) : Bool := k.recKey == d.dataKey k.space

end Sys2Proof.Machine
end

