-- ==== Sys2Proof/Machine/Index.lean ====
section
/-!
DEFINITION. The swath's index, its journal, its logical space, its value cache and the internal holds on its
chains (chapter "Placement and the swath index", with the page map of "Media management" and the write counter
of "Encryption at rest").
-/
namespace Sys2Proof.Machine

/-! ### Use of the hash (R245) -/

def hashSlot (h : DWord) : Nat := h.toNat / 2 ^ 56
def hashGroup (h : DWord) : Nat := h.toNat / 2 ^ 35 % 2 ^ 21
def hashJ1 (h : DWord) : Nat := h.toNat / 2 ^ 29 % 64
def hashJ2 (h : DWord) : Nat := hashJ1 h ^^^ (h.toNat % 64 ||| 1)

/-- The 48-bit fingerprint FP. -/
def hashFp (h : DWord) : Nat := hashSlot h * 2 ^ 40 + h.toNat % 2 ^ 40

/-! ### Index entries (R251, R253) -/

/-- Map units of an extent's slots (R320). -/
def Extent.units (e : Extent) : List Nat := unitsIn 16384 e.start (e.sheaves * 4112)

/-- Map units and 512-byte units of a key's sealed record. -/
def KeyEnt.recUnits (k : KeyEnt) : List Nat := unitsIn 16384 (k.loc * 512) k.recLen
def KeyEnt.recCells (k : KeyEnt) : List Nat := unitsIn 512 (k.loc * 512) k.recLen

def KeyEnt.units (k : KeyEnt) : List Nat := k.recUnits ++ k.extents.flatMap Extent.units
def KeyEnt.cells (k : KeyEnt) : List Nat := k.recCells ++ k.extents.flatMap Extent.cells

/-- PACKED: the key record and the value lie in one map unit. -/
def KeyEnt.oneUnit (k : KeyEnt) : Bool :=
  match k.units with
  | [] => false
  | u :: t => t.all (· == u)

/-- The 128-bit entry of a key (Table 7-4). -/
def KeyEnt.entry (k : KeyEnt) : Nat :=
  hashFp k.hash + k.loc % 2 ^ 40 * 2 ^ 48 + lenCode k.value.length * 2 ^ 88 + eflags k k.oneUnit * 2 ^ 112

/-- The 128-bit entry of a group link: LINK and VALID, OVF_MAP and the first overflow bucket (R253). -/
def Link.entry (l : Link) : Nat :=
  l.map % 2 ^ 64 + (l.chain.head?.getD 0) * 2 ^ 88 + 2 ^ 112 + 2 ^ 114

/-! ### Reports of a swath -/

/-- An event of a swath. -/
def Dev.reportSw (d : Dev) (n : Fin 16) (code sev value detail : Nat) : Dev :=
  d.report code (Unit.swath n) sev value detail

/-- A private source of kind C of a swath whose condition may have risen between two states. -/
def Dev.condCheck (d before : Dev) (n : Fin 16) (p : Nat) : Dev :=
  if !before.condPriv n p && d.condPriv n p then d.condRose (privSw n p) else d

/-! ### Keys held -/

/-- Keys stand in ascending hash, then ascending byte order. -/
def keyBefore (h : DWord) (k : List Byte) (space : Nat) (e : KeyEnt) : Bool :=
  decide (h.toNat < e.hash.toNat) ||
    (h == e.hash && (decide (k.map (·.toNat) < e.key.map (·.toNat)) || (k == e.key && decide (space < e.space))))

def sameKey (space : Nat) (key : List Byte) (e : KeyEnt) : Bool := e.space == space && e.key == key

/-- The entry of a key (R254). -/
def Swath.find (s : Swath) (space : Nat) (key : List Byte) : Option KeyEnt :=
  s.keys.find? (sameKey space key)

/-- Insert or replace an entry, keeping the order. -/
def insertKey (x : KeyEnt) : List KeyEnt → List KeyEnt
  | [] => [x]
  | e :: t =>
    if sameKey x.space x.key e then x :: t
    else if keyBefore x.hash x.key x.space e then x :: e :: t
    else e :: insertKey x t

def Swath.setKey (s : Swath) (x : KeyEnt) : Swath := { s with keys := insertKey x s.keys }

def Swath.eraseKey (s : Swath) (space : Nat) (key : List Byte) : Swath :=
  { s with keys := s.keys.filter fun e => !sameKey space key e }

def sameTomb (space : Nat) (key : List Byte) (t : Tomb) : Bool := t.space == space && t.key == key

/-- The tombstones of a key. -/
def Swath.tombsOf (s : Swath) (space : Nat) (key : List Byte) : List Tomb := s.tombs.filter (sameTomb space key)

/-- A key as it stands, for the record that changes it. -/
def Swath.before (s : Swath) (space : Nat) (key : List Byte) : Before :=
  { space := space, key := key, ent := s.find space key, tombs := s.tombsOf space key }

/-! ### Journal records (R263 to R265) -/

/-- The 48 bytes of a journal record with its CRC-32C (Table 7-6). -/
def JRec.bytes (r : JRec) : List Byte :=
  let b := be 1 r.type ++ be 1 r.space ++ be 2 r.eflags ++ be 4 r.lenCode ++ be 8 r.hash.toNat ++
    be 8 r.rseq ++ be 8 r.loc ++ be 8 r.oldLoc ++ be 4 r.tagSeq
  b ++ be 4 (crc32c b).toNat

/-- Records the ring of 1 GiB holds. -/
def ringCap : Nat := 22369621

/-- The ring holds no more records than it has room for. -/
def Swath.ringFits (s : Swath) : Bool := decide (s.ring.length ≤ ringCap)

/-- The checkpoint segment of an index group, of an overflow bucket and of a map unit (R264). -/
def segGroup (g : Nat) : Nat := g / 512
def segOvf (b : Nat) : Nat := 4096 + b / 32768
def segMap (u : Nat) : Nat := 4608 + u / 2 ^ 20

/-- Segments changed since their checkpoint. -/
def Swath.markDirty (s : Swath) (segs : List Nat) : Swath :=
  { s with dirty := segs.foldl (fun l g => insertNat g l) s.dirty }

/-- Segments whose checkpoint is not up to date, those of a running pass among them. -/
def Swath.dirtyAll (s : Swath) : List Nat :=
  ((s.pass.map (·.2)).getD []).foldl (fun l g => insertNat g l) s.dirty

/-- Write a journal record: it takes the next RSEQ, and its segments are changed since their checkpoint. -/
def Swath.record (s : Swath) (r : JRec) : Swath :=
  { s.markDirty r.segs with
    ring := s.ring ++ [{ r with rseq := s.rseq }], rseq := s.rseq + 1, jmWear := s.jmWear + 1 }

/-- Segments that hold a key's entry; with `link`, its group's link as well. -/
def KeyEnt.segs (k : KeyEnt) (link : Bool) : List Nat :=
  match k.ovf with
  | none => [segGroup (hashGroup k.hash)]
  | some b => segOvf b :: (if link then [segGroup (hashGroup k.hash)] else [])

/-- A record of a key's entry: its EFLAGS and LEN_CODE after the change. -/
def Swath.keyRec (s : Swath) (type : Nat) (k : KeyEnt) (oldLoc tagSeq : Nat) (link : Bool) (was : Before) : Swath :=
  s.record
    { type := type, space := k.space, eflags := k.entry / 2 ^ 112, lenCode := k.entry / 2 ^ 88 % 2 ^ 24,
      hash := k.hash, rseq := 0, loc := k.loc, oldLoc := oldLoc, tagSeq := tagSeq, segs := k.segs link,
      was := some was }

/-- A record of a key that leaves or is absent: the entry is empty after it. -/
def Swath.goneRec (s : Swath) (type space : Nat) (hash : DWord) (loc oldLoc tagSeq : Nat) (segs : List Nat)
    (was : Option Before) : Swath :=
  s.record
    { type := type, space := space, eflags := 0, lenCode := 0, hash := hash, rseq := 0, loc := loc,
      oldLoc := oldLoc, tagSeq := tagSeq, segs := segs, was := was }

/-! ### The page map (R283, R284) -/

/-- A map unit's entry. -/
def Swath.mapAt (s : Swath) (u : Nat) : Word := lookD u 0 s.map

def mapState (w : Word) : Nat := bitsOf w 30 2

/-- LOST: UNMAPPED with ADDR 1. -/
def Swath.isLost (s : Swath) (u : Nat) : Bool := s.mapAt u == 1

/-- Change a map entry with its MAP record (R284). -/
def Swath.setMap (s : Swath) (u : Nat) (w : Word) : Swath :=
  if s.mapAt u = w then s
  else
    let old := s.mapAt u
    let s := s.goneRec 9 0 0 (u + (bitsOf w 0 30) * 2 ^ 32 + mapState w * 2 ^ 62) old.toNat 0 [segMap u] none
    { s with map := putD u 0 w s.map }

/-- Map units of a tombstone's record. -/
def Tomb.units (t : Tomb) : List Nat := unitsIn 16384 (t.loc * 512) (sealedLen t.key.length 0)

/-- Some key or tombstone of the swath names the unit. -/
def Swath.unitUsed (s : Swath) (u : Nat) : Bool :=
  (s.keys.any fun k => k.units.contains u) || s.tombs.any fun t => t.units.contains u

/-- Units no current record names become UNMAPPED with ADDR 0 (R311). -/
def Swath.freeMapUnits (s : Swath) (us : List Nat) : Swath :=
  us.foldl (fun s u => if s.unitUsed u then s else s.setMap u 0) s

/-- Map entry of buffer unit u, quarter q. -/
def bufferEntry (u q : Nat) : Word := BitVec.ofNat 32 (3 * 2 ^ 30 + u * 4 + q)

/-- Map entry of a packing page. -/
def journalEntry (p : Nat) : Word := BitVec.ofNat 32 (2 * 2 ^ 30 + p)

/-- Units not in the map yet enter it where their data lies: the packing page, or the write's buffer
units in order. A unit a streaming write has drained is already there. -/
def Swath.mapNew (s : Swath) (us : List Nat) (page : Option Nat) (bufs : List Nat) : Swath :=
  let us := us.filter fun u => mapState (s.mapAt u) == 0
  (us.zip (List.range us.length)).foldl (fun s e =>
    s.setMap e.1 (match page with
      | some p => journalEntry p
      | none => bufferEntry ((bufs[e.2 / 4]?).getD (bufs.getLast?.getD 0)) (e.2 % 4))) s

/-- A free run of map units for a record or value the swath places itself, as the location of its first byte:
after the last unit of the map, or in the lowest gap (DESIGN CHOICE, log entry 92: the spec does not say where
the firmware places them). -/
def Swath.freshLoc (s : Swath) (units : Nat) : Nat :=
  let top := ((s.map.getLast?).map (·.1 + 1)).getD 0
  (if top + units ≤ 2 ^ 30 then top else firstGap 0 s.map) * 32

/-- The record of a key cannot be read: its tag has failed, or its unit is LOST (R307, R335). -/
def Swath.recLost (s : Swath) (k : KeyEnt) : Bool := k.recBad || k.recUnits.any s.isLost

/-- Superblocks in which a key's units lie. -/
def Swath.sbsOf (s : Swath) (k : KeyEnt) : List Nat :=
  (k.units.filterMap fun u =>
    let w := s.mapAt u
    if mapState w = 1 then some (bitsOf w 19 11) else none).eraseDups

/-- Sheaves of extents that lie in LOST units. -/
def Swath.lostIn (s : Swath) (xs : List Extent) : List Nat :=
  xs.flatMap fun e =>
    (List.range e.sheaves).filterMap fun i =>
      let one : Extent := { e with skip := e.skip + i, first := e.first + i, sheaves := 1 }
      if one.units.any s.isLost then some (e.first + i) else none

/-- Sheaves of a value that lie in LOST units, or did where the value was copied from, in ascending order. -/
def Swath.lostSheaves (s : Swath) (k : KeyEnt) : List Nat :=
  k.gone.foldl (fun l i => insertNat i l) (s.lostIn k.extents)

/-! ### Lists of extents -/

/-- Extents without the sheaves from a up to z. -/
def cutExtents (a z : Nat) (xs : List Extent) : List Extent :=
  xs.flatMap fun e =>
    let stop := e.first + e.sheaves
    let before : List Extent := if e.first < a then [{ e with sheaves := min e.sheaves (a - e.first) }] else []
    let from_ := max e.first z
    let after : List Extent :=
      if from_ < stop ∧ z < stop then
        [{ e with skip := e.skip + (from_ - e.first), first := from_, sheaves := stop - from_ }]
      else []
    before ++ after

/-- Insert an extent in ascending FIRST_SHEAF. -/
def insertExtent (x : Extent) : List Extent → List Extent
  | [] => [x]
  | e :: t => if x.first < e.first then x :: e :: t else e :: insertExtent x t

/-! ### Index buckets (R252, R253, R255) -/

def KeyEnt.bucket (k : KeyEnt) : Nat := if k.alt then hashJ2 k.hash else hashJ1 k.hash

/-- Where an entry stands: ALT, its overflow bucket, its place in the bucket. -/
structure Spot where
  alt : Bool
  ovf : Option Nat
  ent : Nat
  deriving DecidableEq, Repr

def KeyEnt.spot (k : KeyEnt) : Spot := { alt := k.alt, ovf := k.ovf, ent := k.ent }

def KeyEnt.atSpot (k : KeyEnt) (p : Spot) : KeyEnt := { k with alt := p.alt, ovf := p.ovf, ent := p.ent }

/-- The key whose entry stands at place i of bucket b of a group's main table. -/
def Swath.mainAt (s : Swath) (g b i : Nat) : Option KeyEnt :=
  s.keys.find? fun k => k.ovf.isNone && hashGroup k.hash == g && k.bucket == b && k.ent == i

/-- Free places of a main-table bucket; a link takes entry 7 of bucket 0. -/
def Swath.freeIn (s : Swath) (g b : Nat) : List Nat :=
  (List.range 8).filter fun i =>
    !(b == 0 && i == 7 && (look g s.links).isSome) && (s.mainAt g b i).isNone

/-- The key whose entry stands at place i of an overflow bucket. -/
def Swath.ovfAt (s : Swath) (b i : Nat) : Option KeyEnt :=
  s.keys.find? fun k => k.ovf == some b && k.ent == i

/-- The lowest overflow bucket that belongs to no chain. -/
def Swath.newBucket (s : Swath) : Option Nat :=
  let used := s.links.flatMap fun e => e.2.chain
  ((List.range (used.length + 1)).find? fun b => !used.contains b).filter fun b => decide (b < 16777216)

/-- The map bits of a key's two candidate buckets. -/
def ovfBits (h : DWord) : Nat := 2 ^ hashJ1 h ||| 2 ^ hashJ2 h

/-- The lowest free place of a chain: buckets hold 7 entries and a link, the last one 8. -/
def Swath.chainRoom (s : Swath) (chain : List Nat) : Option Spot :=
  chain.findSome? fun b =>
    ((List.range (if chain.getLast? = some b then 8 else 7)).find? fun i => (s.ovfAt b i).isNone).map
      fun i => { alt := false, ovf := some b, ent := i }

/-- Move a key's entry, with a CHANGE record (R255). -/
def Swath.moveEntry (s : Swath) (k : KeyEnt) (p : Spot) (link : Bool) : Swath :=
  let k' := k.atSpot p
  let b := s.before k.space k.key
  let s := (s.setKey k').keyRec 3 k' 0 0 link b
  s.markDirty (k.segs false)

/-- A group's chain takes one more bucket; the key in the entry that becomes the link moves there (R253). -/
def Swath.chainGrow (s : Swath) (g : Nat) (l : Link) (moved : Option KeyEnt) : Option Swath :=
  s.newBucket.map fun b =>
    let s := { s with links := put g { map := l.map ||| (moved.map fun k => ovfBits k.hash).getD 0,
                                       chain := l.chain ++ [b] } s.links }
    match moved with
    | some k => s.moveEntry k { alt := false, ovf := some b, ent := 0 } true
    | none => s

/-- The chain of a group, with room for one more key; none when the overflow area is full. -/
def Swath.chainReady (s : Swath) (g : Nat) : Option Swath :=
  match look g s.links with
  | none => s.chainGrow g { map := 0, chain := [] } (s.mainAt g 0 7)
  | some l =>
    if (s.chainRoom l.chain).isSome then some s
    else s.chainGrow g l (l.chain.getLast?.bind fun b => s.ovfAt b 7)

/-- A place in the group's overflow chain (R253). -/
def Swath.chainPlace (s : Swath) (h : DWord) : Option (Swath × Spot) :=
  let g := hashGroup h
  (s.chainReady g).bind fun s =>
    (look g s.links).bind fun l =>
      (s.chainRoom l.chain).map fun p =>
        ({ s with links := put g { l with map := l.map ||| ovfBits h } s.links }, p)

/-- Where a new key's entry goes; none when the index has no room (R252, R253, R259). -/
def Swath.place (s : Swath) (h : DWord) : Option (Swath × Spot) :=
  let f1 := s.freeIn (hashGroup h) (hashJ1 h)
  let f2 := s.freeIn (hashGroup h) (hashJ2 h)
  match f1, f2 with
  | i :: _, _ =>
    if f2.length ≤ f1.length then some (s, { alt := false, ovf := none, ent := i })
    else some (s, { alt := true, ovf := none, ent := f2.head?.getD 0 })
  | [], i :: _ => some (s, { alt := true, ovf := none, ent := i })
  | [], [] => s.chainPlace h

/-- Where the entry of a key goes: an existing key keeps its entry. -/
def Swath.spotFor (s : Swath) (old : Option KeyEnt) (h : DWord) : Option (Swath × Spot) :=
  match old with
  | some k => some (s, k.spot)
  | none => s.place h

/-- Entries a lookup of a hash finds: those of its two buckets, and of the chain when OVF_MAP names one of them
(R253). -/
def Swath.cands (s : Swath) (h : DWord) : List KeyEnt :=
  let g := hashGroup h
  let hop := match look g s.links with
    | some l => bit l.map (hashJ1 h) || bit l.map (hashJ2 h)
    | none => false
  s.keys.filter fun k => hashGroup k.hash == g && hashFp k.hash == hashFp h && (k.ovf.isNone || hop)

/-- Where a lookup meets an entry: bucket J1, bucket J2, then the chain in its order (R253). -/
def Swath.lookupRank (s : Swath) (k : KeyEnt) : Nat :=
  match k.ovf with
  | none => 8 * b2n k.alt + k.ent
  | some b => 16 + 8 * (((look (hashGroup k.hash) s.links).map fun l => l.chain.idxOf b).getD 0) + k.ent

/-- Entries whose records a lookup reads before it meets the key's own: those that stand before it, or all of them
(R253, R254). -/
def Swath.lookupBefore (s : Swath) (space : Nat) (key : List Byte) (h : DWord) : List KeyEnt :=
  let others := (s.cands h).filter fun k => !sameKey space key k && !s.recLost k
  match s.find space key with
  | some k => others.filter fun x => decide (s.lookupRank x < s.lookupRank k)
  | none => others

/-- The entry that a command's lookup meets: its key's own (R254), or one whose record has failed, which counts as
matching every key with its fingerprint (R335). -/
def Swath.matched (s : Swath) (space : Nat) (key : List Byte) (hash : DWord) : Option KeyEnt :=
  (s.find space key).orElse fun _ => (s.cands hash).find? s.recLost

/-- A new record of a key in the place of an old entry: it enters the index and the journal, and the units given
the map; units the old record alone named are freed. -/
def Swath.enter (s : Swath) (type tagSeq : Nat) (old : Option KeyEnt) (k : KeyEnt) (new : List Nat)
    (page : Option Nat) (bufs : List Nat) : Swath :=
  let b := { s.before k.space k.key with ent := old }
  let k := { k with rseq := s.rseq }
  let s := match old with
    | some o => s.eraseKey o.space o.key
    | none => s
  let s := (s.setKey k).keyRec type k ((old.map (·.loc)).getD 0) tagSeq old.isNone b
  (s.mapNew new page bufs).freeMapUnits ((old.map (·.units)).getD [])

/-- A PAIR_LAG or PAIR_DONE record of a key (R269). -/
def Swath.pairRec (s : Swath) (type tagSeq : Nat) (k : KeyEnt) : Swath :=
  s.keyRec type k 0 tagSeq false (s.before k.space k.key)

/-- The drive, when the swath's ring has had room for what was entered (R265). -/
def Dev.ifFits (d : Dev) (n : Fin 16) : Option Dev := if (d.sw n).ringFits then some d else none

/-! ### The value cache (R260 to R262) -/

/-- Units the cache holds: 8 GiB of 512 bytes. -/
def vcCap : Nat := 16777216

/-- Evict by the clock algorithm: the entry at the hand goes when its reference bit is clear. -/
def evict : Nat → List VcEnt → List VcEnt
  | 0, l => l
  | _ + 1, [] => []
  | f + 1, e :: t => if e.used then evict f (t ++ [{ e with used := false }]) else t

/-- A unit enters the cache. -/
def vcAdd (l : List VcEnt) (u : Nat) : List VcEnt :=
  if l.any fun e => e.unit == u && !e.dead then l
  else
    let l := l.filter fun e => e.unit != u
    (if l.length < vcCap then l else evict (l.length + 1) l) ++ [{ unit := u, used := false, dead := false }]

/-- The cache holds a unit. -/
def Swath.vcHas (s : Swath) (u : Nat) : Bool := s.vc.any fun e => e.unit == u && !e.dead

/-- Units freed leave the cache, those a read pins when the pin is released (R262). -/
def Dev.vcFree (d : Dev) (n : Fin 16) (us : List Nat) : Dev :=
  d.updSw n fun s => { s with
    vc := s.vc.filterMap fun e =>
      if !(us.contains e.unit) then some e
      else if d.pinsCell n e.unit then some { e with dead := true }
      else none }

/-- The units of a key that its present record names no more leave the cache. -/
def Dev.vcFreeOld (d : Dev) (n : Fin 16) (old : KeyEnt) : Dev :=
  let now := (((d.sw n).find old.space old.key).map KeyEnt.cells).getD []
  d.vcFree n (old.cells.filter fun u => !now.contains u)

/-- The write of the FLUSH bit empties the value cache. -/
def doVcFlush (n : Fin 16) (d : Dev) : Dev := d.updSw n fun s => { s with vc := [] }

/-! ### Fallow and the write counter (R309, R325 to R327) -/

/-- A swath enters fallow for good; a swath in fallow whose counter is spent records that as well (R327). -/
def Dev.enterFallow (d : Dev) (n : Fin 16) (why : Nat) : Dev :=
  if (d.sw n).fallow then (if why = 1 then d.reportSw n 0x0503 4 why 0 else d)
  else
    let d1 := d.updSw n fun s => { s with fallow := true, mode := 4 }
    (d1.condCheck d n 6).reportSw n 0x0503 4 why 0

/-- A journal line read back after its write with `bits` bits corrected, 7 being too many: past 2 the line moves to
a spare line, and with fewer than 1,024 of those left the swath enters fallow (R373). -/
def Dev.lineReadBack (d : Dev) (n : Fin 16) (bits : Nat) : Dev :=
  let b := Base.sw n
  let d := if bits = 0 then d
    else if bits ≤ 6 then d.bump b F.SW_JM_CORR_COUNT
    else (d.bump b F.SW_JM_UNCORR_COUNT).raise (privSw n 5)
  if bits ≤ 2 then d
  else
    let d := (d.updSw n fun s => { s with spareLines := s.spareLines - 1 }).bump b F.SW_JM_RETIRED_COUNT
    if (d.sw n).spareLines < 1024 then d.enterFallow n 2 else d

/-- An operation at a swath; the journal line of a record it writes is read back. -/
def Dev.journaled (d : Dev) (n : Fin 16) (al : Alloc) (f : Dev → Dev) : Dev :=
  let d' := f d
  if (d'.sw n).rseq = (d.sw n).rseq then d' else d'.lineReadBack n al.line.val

/-- WARN, SPENT and EXHAUSTED follow the next value of COUNT (R327). -/
def Dev.countMarks (d : Dev) (n : Fin 16) (c : Nat) : Dev :=
  let b := Base.sw n
  let d := if 2 ^ 59 < c ∧ !d.flag b F.SW_CIP_STAT_WARN then
      (d.setFld b F.SW_CIP_STAT_WARN 1).condRose (privSw n 14) else d
  let d := if 2 ^ 60 - 2 ^ 24 ≤ c ∧ !d.flag b F.SW_CIP_STAT_SPENT then
      ((d.setFld b F.SW_CIP_STAT_SPENT 1).condRose (privSw n 15)).enterFallow n 1 else d
  if 2 ^ 60 ≤ c ∧ !d.flag b F.SW_CIP_STAT_EXHAUSTED then
    (d.setFld b F.SW_CIP_STAT_EXHAUSTED 1).reportSw n 0x0505 4 0 0 else d

/-- One new value of COUNT (R325): the mark moves ahead (R326); WARN, SPENT and EXHAUSTED are set
(R327). None once the counter is exhausted. -/
def Dev.takeCount (d : Dev) (n : Fin 16) : Dev × Option Nat :=
  let s := d.sw n
  if 2 ^ 60 ≤ s.count then (d, none)
  else
    let c := s.count
    let d := d.updSw n fun s => { s with
      count := c + 1, mark := if s.mark ≤ c + 1 + 2 ^ 16 then s.mark + 2 ^ 20 else s.mark }
    (d.countMarks n (c + 1), some c)

/-- The last 2^24 values are kept for removals, holds and the records of fallow (R327). -/
def Dev.spent (d : Dev) (n : Fin 16) : Bool := d.flag (Base.sw n) F.SW_CIP_STAT_SPENT

/-- The write counter is exhausted. -/
def Dev.exhausted (d : Dev) (n : Fin 16) : Bool := d.flag (Base.sw n) F.SW_CIP_STAT_EXHAUSTED

/-- A failed tag is counted, latched unless a failure is latched, raised and recorded (R332). The
record of a join (0x0602, VALUE 1) is written by the join; no rule names one for a refused merge. -/
def Dev.tagFailed (d : Dev) (n : Fin 16) (space : Nat) (hash : DWord) (sheaf : Nat)
    (isRecord merge paired : Bool) : Dev :=
  let b := Base.sw n
  let d := d.bump b (if isRecord then F.SW_CIP_REC_FAIL_COUNT else F.SW_CIP_AUTH_FAIL_COUNT)
  let d :=
    if d.flag b F.SW_CIP_FAIL3_VALID then d
    else
      let d := d.setFld b F.SW_CIP_FAIL0_HASH (hash.toNat % 2 ^ 32)
      let d := d.setFld b F.SW_CIP_FAIL1_HASH (hash.toNat / 2 ^ 32)
      let d := d.setFld b F.SW_CIP_FAIL2_SHEAF sheaf
      let d := d.setFld b F.SW_CIP_FAIL3_SPACE space
      let d := d.setFld b F.SW_CIP_FAIL3_RECORD (b2n isRecord)
      let d := d.setFld b F.SW_CIP_FAIL3_MERGE (b2n merge)
      let d := d.setFld b F.SW_CIP_FAIL3_PAIRED (b2n paired)
      d.setFld b F.SW_CIP_FAIL3_VALID 1
  let d := d.raise (privSw n 13)
  if isRecord then d.reportSw n 0x0602 3 0 hash.toNat
  else if merge then d
  else d.reportSw n 0x0601 3 sheaf hash.toNat

/-- Sheaf i of a key's value opens: no earlier failure of the version is known (R334), and its tag verifies as
the sheaf of its key, version and position (R322). -/
def Dev.sheafOpens (d : Dev) (k : KeyEnt) (i : Nat) : Bool :=
  !k.badSheaves.contains i &&
    match extentOf k.extents i with
    | some e => e.opens (d.dataKey k.space) k.hash k.value.length i
    | none => false

/-! ### Internal holds on the chains (R181, R235, R611) -/

/-- A place earlier on a chain no longer stands in the way. -/
def Dev.clears (d : Dev) (n : Fin 16) (read : Bool) (h : Haz) : Bool :=
  match h.item with
  | .hold _ _ _ => false
  | .cmd e =>
    match d.cmd e with
    | none => true
    | some q => q.passed.contains n || (read && isRead q.op)

/-- Every earlier place on the chain of an item is clear (R181). -/
def Dev.chainOk (d : Dev) (n : Fin 16) (item : HazItem) (space : Nat) (hash : DWord) (read : Bool) : Bool :=
  (((d.sw n).haz.takeWhile fun h => h.item != item).filter fun h => h.space == space && h.hash == hash).all
    (d.clears n read)

/-- A change at the swath a slot is being copied from goes on the move list (R272); of a PARTIAL slot in motion
that is its owner or its partner (R275, R276). -/
def Dev.noteMove (d : Dev) (n : Fin 16) (space : Nat) (key : List Byte) (hash : DWord) : Dev :=
  let i := hashSlot hash
  let s := d.slot i
  let src := (s.owner = n ∧ (s.st = 1 ∨ s.st = 5)) ∨ (s.st = 4 ∧ d.adm.slot = some i ∧ (s.owner = n ∨ s.partner = n))
  if src ∧ !s.moved.contains (space, key) then
    d.updDisp fun x => { x with plc := put i { s with moved := s.moved ++ [(space, key)] } x.plc }
  else d

/-- The key is held by an internal HOLD with ACTION 1: a new record under a new counter value, at a place of the
swath's own. None while the ring is full (R265); with the counter exhausted no record can be sealed, and the
hold is dropped (DESIGN CHOICE, log entry 92). -/
def Dev.setHeld (d : Dev) (n : Fin 16) (k : KeyEnt) : Option Dev :=
  match d.takeCount n with
  | (d, none) => some d
  | (d, some c) =>
    let k' := { k with held := true, recSeal := c, recKey := d.dataKey k.space, loc := (d.sw n).freshLoc 1 }
    let d := (d.bump (Base.sw n) F.SW_CIP_SEAL_COUNT).updSw n fun s => s.enter 3 0 (some k) k' k'.recUnits none []
    if (d.sw n).ringFits then some ((d.vcFreeOld n k).noteMove n k.space k.key k.hash) else none

/-- The first internal hold whose turn has come. -/
def Dev.nextHold (d : Dev) (n : Fin 16) : Option Haz :=
  (d.sw n).haz.find? fun h =>
    match h.item with
    | .cmd _ => false
    | .hold _ _ _ => d.chainOk n h.item h.space h.hash false

/-- An internal hold takes effect: it finds its key only at the version the ring recorded. -/
def Dev.holdNow (d : Dev) (n : Fin 16) (h : Haz) : Option Dev :=
  let d := d.updSw n fun s => { s with haz := s.haz.erase h }
  match h.item with
  | .cmd _ => some d
  | .hold space key version =>
    match (d.sw n).find space key with
    | some k => if k.version = version ∧ !k.held then d.setHeld n k else some d
    | none => some d

/-- Internal holds whose turn has come take effect. -/
def Dev.applyHolds (n : Fin 16) : Nat → Dev → Dev
  | 0, d => d
  | f + 1, d =>
    match (d.nextHold n).bind (d.holdNow n) with
    | none => d
    | some d => Dev.applyHolds n f d

/-- Every hold of a swath whose turn has come. -/
def Dev.holdsAt (d : Dev) (n : Fin 16) : Dev := Dev.applyHolds n (d.sw n).haz.length d

/-! ### Checkpoints (R264) -/

/-- A checkpoint pass starts: it will write every segment changed since its last checkpoint. -/
def Dev.startPass (d : Dev) (n : Fin 16) : Dev :=
  d.updSw n fun s =>
    if s.pass.isSome then s
    else { s with pass := some (s.rseq - 1, s.dirty), dirty := [], passReq := false, passAt := d.now }

/-- The ring is RING_START percent full, or PERIOD_S seconds have passed since the last pass. -/
def Dev.passDue (d : Dev) (n : Fin 16) : Bool :=
  let s := d.sw n
  let b := Base.sw n
  decide (d.fld b F.SW_IDX_CKPT_CTRL_RING_START * ringCap ≤ s.ring.length * 100) ||
    decide (s.passAt + d.fld b F.SW_IDX_CKPT_CTRL_PERIOD_S * 1024 ≤ d.now)

/-- CHECKPOINT_PASS_START: a pass that is due starts. -/
def doCkptPassStart (n : Fin 16) (d : Dev) : Dev :=
  if d.swRuns n && (d.sw n).ready && d.passDue n then d.startPass n else d

/-- A write of 1 to FORCE starts a pass. -/
def doCkptForce (n : Fin 16) (d : Dev) : Dev :=
  if (d.sw n).pass.isSome then d.updSw n fun s => { s with passReq := true } else d.startPass n

/-! ### Background work on a value's extents and on overflow buckets -/

/-- The first sheaf of a value that does not open. -/
def Dev.failingSheaf (d : Dev) (k : KeyEnt) : Option Nat :=
  (List.range (sheavesOf k.value.length)).find? fun i => !d.sheafOpens k i

/-- How sheaves sealed now are sealed. -/
def Dev.sealNow (d : Dev) (n : Fin 16) (space cnt : Nat) (hash : DWord) (ver len : Nat) : SealId :=
  { key := d.dataKey space, by_ := n.val, cnt := cnt, hash := hash, ver := ver, endAt := len }

/-- The key with its value joined into one extent. -/
def Dev.joined (d : Dev) (n : Fin 16) (k : KeyEnt) (al : Alloc) (cnt rec : Nat) : KeyEnt :=
  let x : Extent := { loc := al.extLoc % 2 ^ 35, skip := 0, first := 0, sheaves := sheavesOf k.value.length,
                      sealBy := n.val, cnt := cnt, sealVer := k.version,
                      made := d.sealNow n k.space cnt k.hash k.version k.value.length }
  { k with extents := [x], loc := al.recLoc % 2 ^ 35, recSeal := rec, recKey := d.dataKey k.space,
           joinBad := false, badSheaves := [] }

/-- A value of more than 64 extents moves into one, sealed again under a new COUNT value (R257,
R329). A join that finds a sheaf whose tag fails, here or known to fail, leaves the key as it is; a value with
a LOST sheaf cannot be joined. -/
def Dev.joinPoint (d : Dev) (n : Fin 16) (space : Nat) (key : List Byte) (al : Alloc) (badSheaf : Option Nat) :
    Dev :=
  match (d.sw n).find space key with
  | none => d
  | some k =>
    if k.extents.length ≤ 64 ∨ (d.sw n).recLost k ∨ (d.sw n).lostSheaves k ≠ [] ∨ d.spent n ∨ !d.swRuns n then d
    else
      match badSheaf.orElse fun _ => d.failingSheaf k with
      | some i =>
        let d := ((d.bumpBy (Base.sw n) F.SW_CIP_OPEN_COUNT (i + 1)).tagFailed n space k.hash i false true false).reportSw n 0x0602 3 1 k.hash.toNat
        d.updSw n fun s => s.setKey { k with joinBad := true, badSheaves := insertNat i k.badSheaves }
      | none =>
        match d.takeCount n with
        | (_, none) => d
        | (d1, some c) =>
          match d1.takeCount n with
          | (_, none) => d
          | (d2, some rc) =>
            let k' := d2.joined n k al c rc
            let x := sheavesOf k.value.length
            let d3 := (d2.bumpBy (Base.sw n) F.SW_CIP_RESEAL_COUNT x).bumpBy (Base.sw n) F.SW_CIP_SEAL_COUNT (x + 1)
            let d3 := d3.bumpBy (Base.sw n) F.SW_CIP_OPEN_COUNT x
            let d3 := d3.updSw n fun s => s.enter 3 0 (some k) k' k'.units none []
            if (d3.sw n).ringFits then d3.vcFreeOld n k else d

/-- EXTENT_JOIN at a swath. -/
def doExtentJoin (n : Fin 16) (space : Nat) (key : List Byte) (al : Alloc) (badSheaf : Option Nat) (d : Dev) : Dev :=
  d.journaled n al fun d => d.joinPoint n space key al badSheaf

/-- The first key of a group's chain with a free entry in a bucket of its own, and that entry. -/
def Swath.refillFrom (s : Swath) (g : Nat) : Option (KeyEnt × Spot) :=
  s.keys.findSome? fun k =>
    if k.ovf.isNone || hashGroup k.hash != g then none
    else
      match s.freeIn g (hashJ1 k.hash), s.freeIn g (hashJ2 k.hash) with
      | i :: _, _ => some (k, { alt := false, ovf := none, ent := i })
      | [], i :: _ => some (k, { alt := true, ovf := none, ent := i })
      | [], [] => none

/-- Entries that have become free take keys back from the chain (R255), while the ring has room. -/
def Swath.refill (g : Nat) : Nat → Swath → Swath
  | 0, s => s
  | f + 1, s =>
    match s.refillFrom g with
    | none => s
    | some (k, p) =>
      let s' := s.moveEntry k p false
      if s'.ringFits then Swath.refill g f s' else s

/-- Overflow buckets that hold nothing leave the chain, and the link goes with the last of them (R255). -/
def Swath.chainTrim (s : Swath) (g : Nat) : Swath :=
  match look g s.links with
  | none => s
  | some l =>
    let keep := l.chain.filter fun b => s.keys.any fun k => k.ovf == some b && hashGroup k.hash == g
    if keep = l.chain then s
    else
      let s := s.markDirty (segGroup g :: (l.chain.filter fun b => !keep.contains b).map segOvf)
      if keep = [] then { s with links := del g s.links }
      else { s with links := put g { l with chain := keep } s.links }

/-- OVERFLOW_REFILL. -/
def doOverflowRefill (n : Fin 16) (group : Nat) (d : Dev) : Dev :=
  let d1 := d.updSw n fun s => (Swath.refill group s.keys.length s).chainTrim group
  d1.condCheck d n 10

/-! ### Superblocks (R280 to R282, Table 8-5) -/

def Sb.blank : Sb :=
  { st := .erased, slc := false, isMeta := false, refresh := false, closed := false, replaced := 0,
    wear := 0, closedS := 0, order := 0, failed := [], erasedOn := [], target := false, written := 0,
    keys := [] }

def Swath.sb (s : Swath) (i : Nat) : Sb := lookD i Sb.blank s.sbs

def Swath.setSb (s : Swath) (i : Nat) (x : Sb) : Swath := { s with sbs := putD i Sb.blank x s.sbs }

def Swath.countSb (s : Swath) (p : Sb → Bool) : Nat := (s.sbs.filter fun e => p e.2).length

/-- SB_SERVICE: superblocks not RETIRED. -/
def Swath.sbService (s : Swath) : Nat := 2048 - s.countSb fun x => x.st == .retired

/-- FREE_SB: superblocks in ERASED. -/
def Swath.freeSb (s : Swath) : Nat := 2048 - s.countSb fun x => x.st != .erased

/-- SLC superblocks in use. -/
def Swath.slcInUse (s : Swath) : Nat :=
  s.countSb fun x => x.st == .slcOpen || x.st == .slcFull || x.st == .tedding

/-- Bytes of value data in a QLC superblock (R282). -/
def sbBytes : Nat := 8321499136

/-- Spare blocks of a plane, in order (R280). -/
def Swath.sparesIn (s : Swath) (p : Nat) : List Nat := (look p s.spares).getD ((List.range 64).map (2048 + ·))

/-- The physical block a superblock has in a plane: the superblock table (R280). -/
def Swath.blockAt (s : Swath) (i p : Nat) : Nat := lookD (i * 128 + p) i s.blocks

/-- A first start forms superblocks 0 to 2,047 from the good blocks of each plane, in number order; a good block
left over is a spare (R280; DESIGN CHOICE, log entry 108: which good block a superblock takes). -/
def Swath.formed (s : Swath) (bad : List (Nat × Nat)) : Swath :=
  ((bad.map (·.1)).eraseDups).foldl (fun s p =>
    let lost := (bad.filter fun e => e.1 == p).map (·.2)
    let good := (List.range 2112).filter fun b => !lost.contains b
    let moved := ((List.range 2048).zip good).filter fun e => e.1 != e.2
    { s with
      blocks := moved.foldl (fun t e => put (e.1 * 128 + p) e.2 t) s.blocks,
      spares := put p (good.drop 2048) s.spares,
      badBlks := s.badBlks ++ lost.map fun b => (p, b) }) s

/-- Superblock of a physical page address. -/
def ppaSb (a : Nat) : Nat := a / 2 ^ 19 % 2048

/-- Metadata bytes that the swath stores in NAND. -/
def Swath.metaBytes (s : Swath) : Nat :=
  let m := (s.sbs.filter fun e => e.2.isMeta).map (·.1)
  (s.map.filter fun e => mapState e.2 == 1 && m.contains (ppaSb (bitsOf e.2 0 30))).length * 16384

/-- Metadata bytes beyond the 96 superblocks of the reserve: X of R282. -/
def Swath.metaOver (s : Swath) : Nat := s.metaBytes - 96 * sbBytes

/-- The metadata reserve takes one more unit. -/
def Swath.metaRoom (s : Swath) : Bool := decide (s.metaBytes + 16384 ≤ 96 * sbBytes)

/-- An open superblock closes, full or early (R303, R308, R312): units in it that cannot be read back stay at their
sources (R286). -/
def Swath.closeSb (s : Swath) (i nowS : Nat) (early : Bool) : Swath :=
  let x := s.sb i
  let s := s.setSb i { x with
    st := match x.st with
      | .slcOpen => .slcFull
      | .qlcOpen => .qlcFull
      | y => y
    closed := x.closed || early, closedS := nowS % 2 ^ 32, order := s.sbOrder }
  { s with
    sbOrder := s.sbOrder + 1,
    slcOpen := s.slcOpen.filter (· != i), hostOpen := s.hostOpen.filter (· != i),
    gleanOpen := s.gleanOpen.filter (· != i), metaOpen := s.metaOpen.filter (· != i),
    unready := s.unready.filter fun u => u.sb != i }

/-! ### What NAND pages hold (R278, R299, R311) -/

/-- Bytes at an absolute place, laid over a unit's bytes as far as they fall into it. -/
def layUnit (u : Nat) (acc : List Byte) (at_ : Nat) (bs : List Byte) : List Byte :=
  let base := u * 16384
  if base ≤ at_ then overlay acc (at_ - base) (bs.take (base + 16384 - at_))
  else overlay acc 0 ((bs.drop (base - at_)).take 16384)

/-- The sealed sheaves of an extent, each in its slot (R320). -/
def KeyEnt.slots (k : KeyEnt) (e : Extent) : List (Nat × List Byte) :=
  (List.range e.sheaves).map fun i => (e.start + i * 4112, e.made.sheaf k.value (e.first + i))

/-- The sealed records and sheaves that the swath's keys and tombstones have in a unit, by their places. -/
def Swath.partsIn (s : Swath) (n : Fin 16) (u : Nat) : List (Nat × List Byte) :=
  (s.keys.filter fun k => k.units.contains u).flatMap (fun k =>
      (k.loc * 512, k.record n) :: (k.extents.filter fun e => e.units.contains u).flatMap k.slots) ++
    (s.tombs.filter fun t => t.units.contains u).map fun t => (t.loc * 512, t.record n)

/-- The bytes of a unit of the logical space. -/
def Swath.unitBytes (s : Swath) (n : Fin 16) (u : Nat) : List Byte :=
  (s.partsIn n u).foldl (fun acc p => if p.1 < (u + 1) * 16384 ∧ u * 16384 < p.1 + p.2.length then layUnit u acc p.1 p.2 else acc)
    (zeros 16384)

/-- Where the value of a key begins. -/
def KeyEnt.begins (k : KeyEnt) : Option Nat := (extentOf k.extents 0).map fun e => e.start

/-- The first value that begins in a unit: its key space, hash, and the write that stored it (R278). -/
def Swath.firstValue (s : Swath) (u : Nat) : Option (Nat × DWord × Nat × Nat × Nat) :=
  let here := s.keys.filter fun k => k.begins.any fun a => a / 16384 == u
  let first := here.foldl (fun (b : Option KeyEnt) k =>
    match b with
    | none => some k
    | some x => if k.begins.getD 0 < x.begins.getD 0 then some k else some x) none
  first.map fun k => (k.space, k.hash, k.sid % 65536, k.tag, k.seq)

/-- Key space and hash of every record and value in a unit, those of tombstones among them. -/
def Swath.hashesIn (s : Swath) (u : Nat) : List (Nat × DWord) :=
  ((s.keys.filter fun k => k.units.contains u).map fun k => (k.space, k.hash)) ++
    (s.tombs.filter fun t => t.units.contains u).map fun t => (t.space, t.hash)

/-- A unit of the logical space as a page programmed now holds it. -/
def Swath.unitPage (s : Swath) (n : Fin 16) (u : Nat) : NandPage :=
  { unit := u, rseq := s.rseq - 1, first := s.firstValue u, keys := s.hashesIn u, data := s.unitBytes n u }

/-- Pages that a streaming write drained before its switch: what they hold is entered with the switch (log entry
120). -/
def Swath.namePages (s : Swath) (n : Fin 16) (us : List Nat) : Swath :=
  us.foldl (fun s u =>
    let a := bitsOf (s.mapAt u) 0 30
    if mapState (s.mapAt u) ≠ 1 then s
    else match look a s.pages with
      | some p => if p.data.isEmpty then { s with pages := put a { s.unitPage n u with rseq := p.rseq } s.pages } else s
      | none => s) s

/-- The stripe row of a physical page address, in a superblock of the mode. -/
def ppaRow (slc : Bool) (a : Nat) : Nat := if slc then a / 128 % 4096 else a / 128 % 4096 / 4

/-- Bytes of a page: what was programmed, and on the parity die of its stripe row the XOR of the same page position on
the other dies (R299). -/
def Swath.pageAt (s : Swath) (a : Nat) : List Byte :=
  let i := a / 2 ^ 19 % 2048
  let held (b : Nat) : List Byte := ((look b s.pages).map (·.data)).getD []
  if (ppaRow (s.sb i).slc a + i) % 32 = a / 4 % 32 then
    ((List.range 32).filter (· != a / 4 % 32)).foldl (fun acc die =>
      match held (a / 128 * 128 + die * 4 + a % 4) with
      | [] => acc
      | bs => xorBytes acc bs) (zeros 16384)
  else held a

/-! ### Key filters (end of "Discard and secure discard") -/

/-- The filter's bits that a key sets. -/
def filterBits (e : Nat × DWord) : List (BitVec 19) := (List.range 4).map (Config.filterBit e.1 e.2)

/-- The key filter of a superblock may hold a key: the key is in it, or other keys set its 4 bits. -/
def Sb.mayHold (x : Sb) (space : Nat) (hash : DWord) : Bool :=
  x.keys.contains (space, hash) ||
    (!x.keys.isEmpty && (filterBits (space, hash)).all fun b => x.keys.any fun e => (filterBits e).contains b)

end Sys2Proof.Machine
end

