-- ==== Sys2Proof/Machine/Matcher.lean ====
section
/-!
DEFINITION. The policy matcher: the masked match of frames (R212 to R225), the key-pattern automata
(R226 to R233) and the changes to both (R222 to R225, R238 to R241).
-/
namespace Sys2Proof.Machine

/-! ### The masked match -/

/-- The class PRT_x_PCP_MAP gives a PCP (R32). -/
def Dev.pcpClass (d : Dev) (p : PortId) (pcp : Nat) : Nat :=
  (d.fld (Base.prt p) F.PRT_PCP_MAP_CLASS >>> (3 * pcp)) % 8

/-- A frame's 802.1Q tag, when it has one. -/
def frameTag (f : Frame) : Option VlanTag := f.tags.head?

/-- The PCP a frame is classed by: that of a tag with a VID, DEF_PCP of an untagged or
priority-tagged frame (R32). -/
def Dev.initialClass (d : Dev) (p : PortId) (f : Frame) : Nat :=
  match frameTag f with
  | some t =>
    if t.vid = 0 then d.pcpClass p (d.fld (Base.prt p) F.PRT_FRAME_DEF_PCP) else d.pcpClass p t.pcp.toNat
  | none => d.pcpClass p (d.fld (Base.prt p) F.PRT_FRAME_DEF_PCP)

/-- DST_SEL of Table 6-1. -/
def dstSel (m : DstMac) : Option DstIp → Nat
  | some a =>
    match a with
    | .v4 => 0 | .linkLocal => 1 | .second => 2 | .solicited => 3 | .other => 3
  | none => if m = .own then 0 else 3

/-- KIND, the IP header, the UDP source port and the SKP header a frame carries (Table 6-1). -/
def frameKind : FrameBody → Nat × Option IpHdr × Nat × Option SkpHdr
  | .udp ip sp _ _ skp => (if ip.v6 then 1 else 0, some ip, sp.toNat, some skp.hdr)
  | .ptp (some u) _ => (2, some u.ip, u.srcPort.toNat, none)
  | .ptp none _ => (2, none, 0, none)
  | .lldp => (3, none, 0, none)
  | .icmp ip => (4, some ip, 0, none)
  | .arp _ _ => (5, none, 0, none)
  | .nsol ip _ => (5, some ip, 0, none)
  | .pause _ | .pfc _ | .other => (7, none, 0, none)

/-- The search key of R213. -/
def Dev.searchKey (d : Dev) (p : PortId) (f : Frame) : BitVec 320 :=
  let k := frameKind f.body
  let ip := k.2.1
  let tagged := frameTag f |>.isSome
  let pcp := match frameTag f with
    | some t => t.pcp.toNat
    | none => d.fld (Base.prt p) F.PRT_FRAME_DEF_PCP
  let vid := match frameTag f with
    | some t => t.vid.toNat
    | none => 0
  let dscp := match ip with
    | some h => h.dscp.toNat
    | none => 0
  let src := match ip with
    | some h => h.src.toNat
    | none => 0
  let skp := match k.2.2.2 with
    | some h =>
      (h.session.toNat % 16384) <<< 176 ||| h.opcode.toNat <<< 192 ||| (h.keySpace.toNat % 256) <<< 200
        ||| b2n (h.flags.getLsbD 1) <<< 208 ||| b2n (h.fragIndex == 0) <<< 209
    | none => 0
  BitVec.ofNat 320 (p.idx ||| k.1 <<< 2 ||| b2n tagged <<< 5 ||| pcp <<< 6 ||| vid <<< 9
    ||| dscp <<< 21 ||| dstSel f.dst (ip.map (d.dstIp p)) <<< 27 ||| d.initialClass p f <<< 29
    ||| src <<< 32 ||| k.2.2.1 <<< 160 ||| skp ||| f.srcMac.toNat <<< 224)

/-- The pre-filter vector P. -/
def prefilter (p : PortId) (f : Frame) : Nat :=
  let k := frameKind f.body
  let v6 := match k.2.1 with
    | some h => h.v6
    | none => false
  let skp := k.2.2.2
  let sealedSkp := match skp with
    | some h => h.flags.getLsbD 1
    | none => false
  let first := match skp with
    | some h => h.fragIndex == 0
    | none => false
  2 ^ p.idx + 8 * b2n v6 + 16 * b2n (frameTag f).isSome + 32 * b2n skp.isSome
    + 64 * b2n sealedSkp + 128 * b2n first

/-- The global mask of POL_GMASK0 to POL_GMASK9. -/
def Dev.gmask (d : Dev) : BitVec 320 :=
  BitVec.ofNat 320 (((List.range 10).map fun k =>
    (d.fld Base.pol (F.POL_GMASK_BITS.at k)) <<< (32 * k)).foldl (· ||| ·) 0)

/-- Row group g takes part in the search (R221). -/
def Dev.groupOn (d : Dev) (g P : Nat) : Bool :=
  let care := d.fld Base.pol (F.POL_PF_G_CARE.at g)
  d.flag Base.pol (F.POL_PF_G_ENABLE.at g) &&
    (P &&& care) == (d.fld Base.pol (F.POL_PF_G_MATCH.at g) &&& care)

/-- An entry matches a key (R214). -/
def tcMatches (gm key : BitVec 320) (e : TcEnt) : Bool :=
  e.valid && ((key ^^^ e.value) &&& e.mask &&& gm) == 0

/-- The entries that match, lowest index first. -/
def Dev.tcHits (d : Dev) (key : BitVec 320) (P : Nat) : List (Nat × TcEnt) :=
  d.pol.tc.filter fun e => d.groupOn (e.1 / 512) P && tcMatches d.gmask key e.2

/-- The winner: highest PRIORITY, then lowest index (R215). -/
def bestHit : List (Nat × TcEnt) → Option (Nat × TcEnt)
  | [] => none
  | h :: t =>
    match bestHit t with
    | none => some h
    | some b => if h.2.prio < b.2.prio then some b else some h

/-- One search (R215, R216): the class and ACTION it gives, and what it counts and latches. -/
def Dev.tcSearch (d : Dev) (p : PortId) (f : Frame) : Dev × Nat × Nat :=
  let cls0 := d.initialClass p f
  if !d.flag Base.pol F.POL_CTRL_TC_EN then (d, cls0, 0)
  else
    let hits := d.tcHits (d.searchKey p f) (prefilter p f)
    match bestHit hits with
    | none => (d.bump Base.pol F.POL_TC_NOMATCH_COUNT, cls0, 0)
    | some (i, e) =>
      let d := { d with pol := { d.pol with
        tc := put i { e with hits := e.hits + 1 } d.pol.tc } }
      let d := match hits.filter fun h => h.2.prio == e.prio && i < h.1 with
        | [] => d
        | (j, _) :: _ =>
          let d := d.bump Base.pol F.POL_TC_MULTI_COUNT
          if d.flag Base.pol F.POL_TC_LAST_VALID then d
          else
            let d := d.setFld Base.pol F.POL_TC_LAST_WINNER i
            let d := d.setFld Base.pol F.POL_TC_LAST_SECOND j
            d.setCond Base.pol F.POL_TC_LAST_VALID 1 0x2A
      let a := e.action.toNat
      (d, if bit a 3 then a % 8 else cls0, (a / 16) % 4)

/-! ### Masked-match commands (Table 6-3) -/

def TcEnt.blank : TcEnt :=
  { value := 0, mask := 0, prio := 0, valid := false, action := 0, hits := 0 }

def Dev.tcEnt (d : Dev) (i : Nat) : TcEnt := lookD i TcEnt.blank d.pol.tc

def Dev.setTc (d : Dev) (i : Nat) (e : TcEnt) : Dev :=
  { d with pol := { d.pol with tc := putD i TcEnt.blank e d.pol.tc } }

def Dev.tcBusy (d : Dev) : Bool := d.flag Base.pol F.POL_TC_STAT_BUSY

/-- The cause for which a command is refused, the lowest-numbered when several apply (R223). -/
def Dev.tcCause (d : Dev) (op frm upTo : Nat) : Option Nat :=
  if op = 2 ∧ (d.tcEnt frm).valid then some 1
  else if op = 4 ∧ (d.tcEnt upTo).valid then some 2
  else if op = 5 ∧ (d.tcEnt frm).valid then some 2
  else if d.tcBusy then some 3
  else if (op = 4 ∨ op = 5) ∧ upTo ≤ frm then some 4
  else if op = 0 ∨ 6 ≤ op then some 5
  else none

/-- ERR and its cause (R223). -/
def Dev.tcError (d : Dev) (cause : Nat) : Dev :=
  (d.setFld Base.pol F.POL_TC_STAT_CAUSE cause).setCond Base.pol F.POL_TC_STAT_ERR 1 0x28

/-- The staging words as an entry: VALID stays 0 until VALIDATE, and the hits are zeroed. -/
def Dev.stagedEntry (d : Dev) : TcEnt :=
  let w (k : Nat) : Nat := (lookD k 0#32 d.pol.stage).toNat
  let wide (k0 : Nat) : Nat := ((List.range 10).map fun k => w (k0 + k) <<< (32 * k)).foldl (· ||| ·) 0
  { value := BitVec.ofNat 320 (wide 0), mask := BitVec.ofNat 320 (wide 10), prio := w 20 % 256,
    valid := false, action := BitVec.ofNat 32 (w 21), hits := 0 }

/-- A command, refused under R223 or taking effect (R222). -/
def Dev.tcCommand (d : Dev) (op frm upTo : Nat) : Dev :=
  match d.tcCause op frm upTo with
  | some c => d.tcError c
  | none =>
    match op with
    | 1 => d.setTc frm { (d.tcEnt frm) with valid := false }
    | 2 => d.setTc frm d.stagedEntry
    | 3 => d.setTc frm { (d.tcEnt frm) with valid := true }
    | 4 =>
      let d := { d with pol := { d.pol with
        shift := some { up := true, frm := frm, upTo := upTo, src := upTo - 1, left := upTo - frm } } }
      d.setFld Base.pol F.POL_TC_STAT_BUSY 1
    | 5 =>
      let d := { d with pol := { d.pol with
        shift := some { up := false, frm := frm, upTo := upTo, src := frm + 1, left := upTo - frm } } }
      d.setFld Base.pol F.POL_TC_STAT_BUSY 1
    | _ => d

/-- INVALIDATE. -/
def doTcInvalidate (frm : Nat) (d : Dev) : Dev := d.tcCommand 1 frm 0
/-- WRITE. -/
def doTcWrite (frm : Nat) (d : Dev) : Dev := d.tcCommand 2 frm 0
/-- VALIDATE. -/
def doTcValidate (frm : Nat) (d : Dev) : Dev := d.tcCommand 3 frm 0
/-- SHIFT_UP. -/
def doTcShiftUp (frm upTo : Nat) (d : Dev) : Dev := d.tcCommand 4 frm upTo
/-- SHIFT_DOWN. -/
def doTcShiftDown (frm upTo : Nat) (d : Dev) : Dev := d.tcCommand 5 frm upTo

/-- A write of POL_TC_CMD that names no command or that is refused (R223). -/
def doTcCmdInvalid (op frm upTo : Nat) (d : Dev) : Dev :=
  match d.tcCause op frm upTo with
  | some c => d.tcError c
  | none => d

/-- The two cycles that move one entry (R225): the destination takes the entry, the source becomes
invalid; after the last move BUSY returns to 0. -/
def doTcShiftMove (d : Dev) : Dev :=
  match d.pol.shift with
  | none => d
  | some sh =>
    let e := d.tcEnt sh.src
    let dst := if sh.up then sh.src + 1 else sh.src - 1
    let d := d.setTc dst e
    let d := d.setTc sh.src { e with valid := false }
    if sh.left ≤ 1 then
      ({ d with pol := { d.pol with shift := none } }).setFld Base.pol F.POL_TC_STAT_BUSY 0
    else
      { d with pol := { d.pol with
        shift := some { sh with src := if sh.up then sh.src - 1 else sh.src + 1, left := sh.left - 1 } } }

/-- Word `k` of an entry as POL_TC_DATA reads it (Table 6-11). -/
def tcWord (e : TcEnt) (k : Nat) : Word :=
  if k < 10 then BitVec.ofNat 32 (e.value.toNat >>> (32 * k))
  else if k < 20 then BitVec.ofNat 32 (e.mask.toNat >>> (32 * (k - 10)))
  else if k = 20 then BitVec.ofNat 32 (e.prio + 256 * b2n e.valid)
  else if k = 21 then e.action
  else if k = 22 then e.hits
  else 0

/-- Addresses of the window registers. -/
def Addr.tcAddr : Nat := 0x60080
def Addr.tcData : Nat := 0x60084
def Addr.paAddr : Nat := 0x60108
def Addr.paData : Nat := 0x6010C
def Addr.gclAddr (p : PortId) : Nat := Base.prt p + 0x90
def Addr.gclData (p : PortId) : Nat := Base.prt p + 0x94

/-- POL_TC_ADDR after one access: WORD steps from 22 to 0 of the next entry, and after the last word
of the array to word 0 (R603). -/
def stepTcAddr (a : Word) : Word :=
  let w := bitsOf a 0 5
  let e := bitsOf a 5 12
  if w < 22 then withBits a 0 5 (w + 1) else withBits (withBits a 0 5 0) 5 12 (e + 1)

/-- What a read of POL_TC_DATA returns on a path. -/
def Dev.tcDataRead (d : Dev) (path : ReqPath) : Word :=
  let a := d.pathReg path Addr.tcAddr
  tcWord (d.tcEnt (bitsOf a 5 12)) (bitsOf a 0 5)

/-- The bits of a staging word that an entry has; the others are reserved and stay 0 (Tables 6-2 and 6-11,
R6). -/
def tcMask (k : Nat) : Word := if k = 20 then 0xFF#32 else if k = 21 then 0x3F#32 else 0xFFFFFFFF#32

/-- An access to POL_TC_DATA: a write reaches the staging word WORD, 0 to 21; the address steps. -/
def doTcDataAccess (path : ReqPath) (w : Option Word) (d : Dev) : Dev :=
  let a := d.pathReg path Addr.tcAddr
  let k := bitsOf a 0 5
  let d := match w with
    | none => d
    | some v =>
      if k ≤ 21 then { d with pol := { d.pol with stage := putD k 0 (v &&& tcMask k) d.pol.stage } } else d
  d.setPathReg path Addr.tcAddr (stepTcAddr a)

/-! ### Key-pattern automata -/

/-- Bank 1 is B. -/
def Dev.paActive (d : Dev) : Nat := d.fld Base.pol F.POL_PA_CTRL_ACTIVE

def Dev.bank (d : Dev) (b : Nat) : Tbl Word := if b = 0 then d.pol.bankA else d.pol.bankB

def Dev.activeBank (d : Dev) : Tbl Word := d.bank d.paActive
def Dev.shadowBank (d : Dev) : Tbl Word := d.bank (1 - d.paActive)

def Dev.setBank (d : Dev) (b : Nat) (t : Tbl Word) : Dev :=
  if b = 0 then { d with pol := { d.pol with bankA := t } }
  else { d with pol := { d.pol with bankB := t } }

/-- A word of a bank (Table 6-6). -/
def paWord (t : Tbl Word) (a : Nat) : Word := lookD a 0 t

/-- A set header (Table 6-6). -/
def setRowBase (t : Tbl Word) (k : Nat) : Nat := bitsOf (paWord t (0x225400 + 8 * k)) 0 21
def setFirst (t : Tbl Word) (k : Nat) : Nat := bitsOf (paWord t (0x225401 + 8 * k)) 0 17
def setCount (t : Tbl Word) (k : Nat) : Nat := bitsOf (paWord t (0x225402 + 8 * k)) 0 18
def setClassBits (t : Tbl Word) (k : Nat) : Nat := bitsOf (paWord t (0x225403 + 8 * k)) 0 3
def setDigest (t : Tbl Word) (k : Nat) : Word × Word :=
  (paWord t (0x225404 + 8 * k), paWord t (0x225405 + 8 * k))
def setValid (t : Tbl Word) (k : Nat) : Bool := (paWord t (0x225406 + 8 * k)).getLsbD 0

/-- The set a key space maps to, if any. -/
def spaceSet (t : Tbl Word) (space : Nat) : Option Nat :=
  let w := paWord t (0x225440 + space)
  if w.getLsbD 3 then some (bitsOf w 0 3) else none

/-- One step of a lane (R229); none when NEXT leaves the set's own states (R230). -/
def laneStep (t : Tbl Word) (k s : Nat) (x : Byte) : Option Nat :=
  let c := bitsOf (paWord t (0x224000 + 256 * k + x.toNat)) 0 6
  let n := bitsOf (paWord t (setRowBase t k + (s - setFirst t k) * 2 ^ setClassBits t k + c)) 0 17
  if setFirst t k ≤ n ∧ n < setFirst t k + setCount t k then some n else none

/-- A lane over a whole key. -/
def laneRun (t : Tbl Word) (k : Nat) : Nat → List Byte → Option Nat
  | s, [] => some s
  | s, x :: r =>
    match laneStep t k s x with
    | none => none
    | some n => laneRun t k n r

/-- The accept list of a state; none when an entry lies outside the accept-list table (R230). -/
def acceptList (t : Tbl Word) (s : Nat) : Option (List Nat) :=
  let w := paWord t (0x200000 + s)
  let ptr := bitsOf w 0 14
  let len := bitsOf w 14 5
  if 16 < len ∨ 16384 < ptr + len then none
  else some ((List.range len).map fun j => bitsOf (paWord t (0x220000 + ptr + j)) 0 10)

/-- Words of a rule (Table 6-7). -/
def ruleW (t : Tbl Word) (r j : Nat) : Word := paWord t (0x224800 + 3 * r + j)
def ruleValid (t : Tbl Word) (r : Nat) : Bool := (ruleW t r 0).getLsbD 31
def rulePrio (t : Tbl Word) (r : Nat) : Nat := bitsOf (ruleW t r 0) 0 8

/-- The winner among valid rules: highest PRIORITY, then lowest number; and whether it is tied. -/
def bestRule (t : Tbl Word) (rs : List Nat) : Option (Nat × Bool) :=
  let v := rs.filter (ruleValid t)
  let top := (v.map (rulePrio t)).foldl max 0
  match v.filter (fun r => rulePrio t r == top) with
  | [] => none
  | r :: l => some (l.foldl min r, decide (1 < ((r :: l).foldl (fun acc x => insertNat x acc) []).length))

/-- Run set k over a key and resolve the result (R229 to R231). -/
def runSet (t : Tbl Word) (k : Nat) (key : List Byte) : LaneOut :=
  match laneRun t k (setFirst t k) key with
  | none => { bad := true, rule := none, multi := false, final := 0 }
  | some s =>
    match acceptList t s with
    | none => { bad := true, rule := none, multi := false, final := s }
    | some rs =>
      match bestRule t rs with
      | none => { bad := false, rule := none, multi := false, final := s }
      | some (r, m) => { bad := false, rule := some r, multi := m, final := s }

/-- A key space's defaults. -/
def Dev.spaceDefaults (d : Dev) (space : Nat) : KeyRule :=
  match look space d.boot.set_.spaces with
  | some x => { retainS := x.retainS, prio := x.qprio, mirror := x.mirror, holdSel := 0, holdMin := 0,
                rule := 0x3FF }
  | none => { retainS := 0, prio := 0, mirror := false, holdSel := 0, holdMin := 0, rule := 0x3FF }

/-- What a winning rule gives the key (Table 6-7). -/
def Dev.ruleGives (d : Dev) (t : Tbl Word) (space r : Nat) : KeyRule :=
  let w := ruleW t r 0
  let df := d.spaceDefaults space
  { retainS := if w.getLsbD 13 then df.retainS else (ruleW t r 1).toNat
    prio := if w.getLsbD 14 then df.prio else bitsOf w 8 2
    mirror := if w.getLsbD 15 then df.mirror else w.getLsbD 10
    holdSel := bitsOf w 11 2
    holdMin := bitsOf (ruleW t r 2) 0 16
    rule := r }

/-- The pattern result of a key and what it counts (R231). -/
def Dev.patternOf (d : Dev) (space : Nat) (key : List Byte) : Dev × KeyRule :=
  let t := d.activeBank
  if !d.flag Base.pol F.POL_CTRL_PA_EN then (d, d.spaceDefaults space)
  else
    match spaceSet t space with
    | none => (d, d.spaceDefaults space)
    | some k =>
      let o := runSet t k key
      if o.bad then (d.bump Base.pol F.POL_PA_BADSTATE_COUNT, d.spaceDefaults space)
      else
        match o.rule with
        | none => (d.bump Base.pol F.POL_PA_NOMATCH_COUNT, d.spaceDefaults space)
        | some r =>
          let g := d.ruleGives t space r
          let d := d.bump Base.pol F.POL_PA_MATCH_COUNT
          (if o.multi then d.bump Base.pol F.POL_PA_MULTI_COUNT else d, g)

/-- Lanes in which a key runs. -/
def Dev.lanesBusy (d : Dev) : Nat := d.pol.lanes.length

/-- The lowest lane no key runs in. -/
def Dev.freeLane (d : Dev) : Option Nat :=
  (List.range 16).find? fun l => (look l d.pol.lanes).isNone

/-! ### The keys of R226 -/

/-- A frame that brings the first byte of a data request's key: its fragment 0. LIST carries a prefix, not
a key. -/
def bringsKey (s : SkpFrame) : Bool :=
  let op := s.hdr.opcode.toNat
  s.hdr.fragIndex == 0 && isData op && op != Op.list && decide (32 < s.payload.length) &&
    fieldBe s.payload 0 2 != 0

/-- The first byte of a frame's key has arrived: the key takes its place in the order (R226). -/
def Dev.noteKey (d : Dev) (s : SkpFrame) : Dev × Option Nat :=
  if bringsKey s then
    let n := d.pol.keyNo
    ({ d with pol := { d.pol with
        keyNo := n + 1,
        keys := put n { space := s.hdr.keySpace.toNat, key := keyOf s.payload, done := none } d.pol.keys } },
      some n)
  else (d, none)

/-- A frame that does not commit leaves nothing behind (R11). -/
def Dev.dropKey (d : Dev) (no : Option Nat) : Dev :=
  match no with
  | none => d
  | some n => { d with pol := { d.pol with
      keys := del n d.pol.keys, lanes := d.pol.lanes.filter fun l => l.2 != n } }

/-- A request will not take its key's result: one that is ready is discarded, one that is not still runs
its lane and is counted. -/
def Dev.leaveKey (d : Dev) (no : Option Nat) : Dev :=
  match no.bind fun n => look n d.pol.keys with
  | none => d
  | some k => if k.done.isSome then d.dropKey no else d

/-- The key that has waited longest for a lane. -/
def Dev.nextLaneKey (d : Dev) : Option Nat :=
  (d.pol.keys.find? fun e => e.2.done.isNone && !(d.pol.lanes.any fun l => l.2 == e.1)).map (·.1)

/-- A key takes the lowest free lane (R226). While a swap waits, no lane starts, so that one without a
running lane comes (R239; DESIGN CHOICE, log entry 81: the spec lets lanes start for up to 600 port cycles
after SWAP). -/
def doPatternLaneStart (d : Dev) : Dev :=
  if d.flag Base.pol F.POL_PA_STAT_PENDING then d
  else
    match d.nextLaneKey, d.freeLane with
    | some n, some l => { d with pol := { d.pol with lanes := put l n d.pol.lanes } }
    | _, _ => d

/-- Some request has yet to take a key's result: a frame or a message that is no command yet. -/
def Dev.keyAwaited (d : Dev) (n : Nat) : Bool :=
  (allPorts.any fun p => (d.port p).rxq.any fun e => e.keyNo == some n) ||
    d.ses.ctx.any fun e => e.2.msgs.any fun m => m.keyNo == some n && m.cid.isNone

/-- A lane finishes its key (R231) and is free again; the result goes to the key's command, or waits for
the request to become one. -/
def doPatternResult (lane : Nat) (d : Dev) : Dev :=
  match look lane d.pol.lanes with
  | none => d
  | some n =>
    let d := { d with pol := { d.pol with lanes := del lane d.pol.lanes } }
    match look n d.pol.keys with
    | none => d
    | some k =>
      let (d, r) := d.patternOf k.space k.key
      match d.disp.cmds.find? fun e => e.2.keyNo == some n && e.2.rule.isNone with
      | some (cid, _) => (d.dropKey (some n)).updCmd cid fun x => { x with rule := some r }
      | none =>
        if d.keyAwaited n then
          { d with pol := { d.pol with keys := put n { k with done := some r } d.pol.keys } }
        else d.dropKey (some n)

/-- Key spaces whose pairing is by pattern. -/
def Dev.byPattern (d : Dev) : List Nat :=
  (d.boot.set_.spaces.filter fun e => e.2.pairing == 2).map (·.1)

/-- The table checks of R238 on a bank. -/
def bankChecks (t : Tbl Word) : Bool :=
  let v := (List.range 8).filter (setValid t)
  v.all (fun k =>
    decide (3 ≤ setClassBits t k ∧ setClassBits t k ≤ 6) &&
    decide (setFirst t k + setCount t k ≤ 131072) &&
    decide (setRowBase t k + setCount t k * 2 ^ setClassBits t k ≤ 2097152) &&
    (t.filter fun e => decide (0x200000 + setFirst t k ≤ e.1 ∧
        e.1 < 0x200000 + setFirst t k + setCount t k)).all
      fun e => decide (bitsOf e.2 14 5 ≤ 16 ∧ bitsOf e.2 0 14 + bitsOf e.2 14 5 ≤ 16384)) &&
  decide ((v.map (setCount t)).sum ≤ 131072)

/-- For every key space in "by pattern" mode the shadow set's digest equals the active set's. -/
def Dev.digestsAgree (d : Dev) : Bool :=
  d.byPattern.all fun sp =>
    match spaceSet d.activeBank sp, spaceSet d.shadowBank sp with
    | some a, some b => setDigest d.activeBank a == setDigest d.shadowBank b
    | none, none => true
    | _, _ => false

/-- ERR and CAUSE of POL_PA_STAT. -/
def Dev.paError (d : Dev) (cause : Nat) : Dev :=
  (d.setFld Base.pol F.POL_PA_STAT_CAUSE cause).setCond Base.pol F.POL_PA_STAT_ERR 1 0x28

/-- A write of 1 to POL_PA_CTRL.SWAP (R238). -/
def doPaSwapRequest (d : Dev) : Dev :=
  if !bankChecks d.shadowBank then d.paError 1
  else if !d.digestsAgree then d.paError 2
  else d.setFld Base.pol F.POL_PA_STAT_PENDING 1

/-- The swap takes effect in a cycle in which no lane runs (R239). -/
def doPaSwapTakeEffect (d : Dev) : Dev :=
  if d.flag Base.pol F.POL_PA_STAT_PENDING && d.lanesBusy == 0 then
    let d := d.setFld Base.pol F.POL_PA_CTRL_ACTIVE (1 - d.paActive)
    (d.setFld Base.pol F.POL_PA_STAT_PENDING 0).raise (shared 0x29)
  else d

/-- A rule is named in the accept lists of a set that a "by pattern" key space maps to. -/
def Dev.ruleMirrors (d : Dev) (r : Nat) : Bool :=
  let t := d.activeBank
  d.byPattern.any fun sp =>
    match spaceSet t sp with
    | none => false
    | some k =>
      (t.filter fun e => decide (0x200000 + setFirst t k ≤ e.1 ∧
          e.1 < 0x200000 + setFirst t k + setCount t k)).any
        fun e => match acceptList t (e.1 - 0x200000) with
          | some l => l.contains r
          | none => false

/-- A write to the active bank is refused (R240). -/
def Dev.activeWriteRefused (d : Dev) (a : Nat) (v : Word) : Bool :=
  if 0x224800 ≤ a ∧ a < 0x225400 then
    let r := (a - 0x224800) / 3
    let j := (a - 0x224800) % 3
    let old := paWord d.activeBank a
    let onlyValid := j == 0 && ((old ^^^ v) &&& 0x7FFFFFFF#32) == 0
    let mirrorBits := ((old ^^^ v) &&& 0x00008400#32) != 0
    (ruleValid d.activeBank r && !onlyValid) || (j == 0 && mirrorBits && d.ruleMirrors r)
  else true

/-- POL_PA_ADDR after one access; after the last word of a bank it steps to word 0 (R603). -/
def stepPaAddr (a : Word) : Word :=
  let w := bitsOf a 0 22
  withBits a 0 22 (if w = 0x22553F then 0 else w + 1)

/-- What a read of POL_PA_DATA returns on a path. -/
def Dev.paDataRead (d : Dev) (path : ReqPath) : Word :=
  let a := d.pathReg path Addr.paAddr
  paWord (if a.getLsbD 23 then d.activeBank else d.shadowBank) (bitsOf a 0 22)

/-- The bits a word of a bank has; the others are reserved and stay 0 (Tables 6-6 and 6-7, R6). -/
def paMask (a : Nat) : Word :=
  if a < 0x200000 then 0x1FFFF#32
  else if a < 0x220000 then 0x7FFFF#32
  else if a < 0x224000 then 0x3FF#32
  else if a < 0x224800 then 0x3F#32
  else if a < 0x225400 then
    (if (a - 0x224800) % 3 = 0 then 0x8000FFFF#32 else if (a - 0x224800) % 3 = 1 then 0xFFFFFFFF#32
     else 0xFFFF#32)
  else if a < 0x225440 then
    match (a - 0x225400) % 8 with
    | 0 => 0x1FFFFF#32
    | 1 => 0x1FFFF#32
    | 2 => 0x3FFFF#32
    | 3 => 0x7#32
    | 6 => 0x1#32
    | 7 => 0#32
    | _ => 0xFFFFFFFF#32
  else 0xF#32

/-- A bank as a settings image brings it: reserved bits 0. -/
def paLoad (t : Tbl Word) : Tbl Word := t.map fun e => (e.1, e.2 &&& paMask e.1)

/-- An access to POL_PA_DATA (R238, R240); the address steps. -/
def doPaDataAccess (path : ReqPath) (w : Option Word) (d : Dev) : Dev :=
  let a := d.pathReg path Addr.paAddr
  let at_ := bitsOf a 0 22
  let d := match w with
    | none => d
    | some v =>
      let v := v &&& paMask at_
      if a.getLsbD 23 then
        if d.activeWriteRefused at_ v then d.paError 3
        else d.setBank d.paActive (putD at_ 0 v d.activeBank)
      else if at_ ≤ 0x22553F then d.setBank (1 - d.paActive) (putD at_ 0 v d.shadowBank)
      else d
  d.setPathReg path Addr.paAddr (stepPaAddr a)

/-- POL_PA_TEST.GO: SET of the shadow bank runs over the LEN test key bytes as they stand, and DONE clears
(R241). -/
def doPaTestGo (d : Dev) : Dev :=
  if d.pol.testing.isSome then d
  else
    let d := d.setFld Base.pol F.POL_PA_TRES_DONE 0
    let o := runSet d.shadowBank (d.fld Base.pol F.POL_PA_TEST_SET)
      (padTo (d.fld Base.pol F.POL_PA_TEST_LEN) d.pol.tkey)
    { d with pol := { d.pol with testing := some o } }

/-- The test has had a lane, and its result is ready (R241). -/
def doPaTestDone (d : Dev) : Dev :=
  match d.pol.testing with
  | none => d
  | some o =>
    if 16 ≤ d.lanesBusy then d
    else
    let d := { d with pol := { d.pol with testing := none } }
    let d := d.setFld Base.pol F.POL_PA_TRES_RULE (o.rule.getD 0)
    let d := d.setFld Base.pol F.POL_PA_TRES_MATCH (b2n o.rule.isSome)
    let d := d.setFld Base.pol F.POL_PA_TRES_MULTI (b2n o.multi)
    let d := d.setFld Base.pol F.POL_PA_TRES_BADSTATE (b2n o.bad)
    let d := d.setFld Base.pol F.POL_PA_TRES_FINAL o.final
    d.setFld Base.pol F.POL_PA_TRES_DONE 1

/-- A write to POL_PA_TKEY: the next four test key bytes, first in [31:24]. -/
def doPaTkeyWrite (w : Word) (d : Dev) : Dev :=
  if 512 ≤ d.pol.tkeyAt then d
  else { d with pol := { d.pol with
    tkey := overlay d.pol.tkey d.pol.tkeyAt (be 4 w.toNat), tkeyAt := d.pol.tkeyAt + 4 } }

/-- A write to POL_PA_TEST.LEN: a legal length is taken, and the pointer resets; the bytes stay. -/
def doPaTestLenWrite (len : Nat) (d : Dev) : Dev :=
  if 1 ≤ len ∧ len ≤ 512 then
    let d := d.setFld Base.pol F.POL_PA_TEST_LEN len
    { d with pol := { d.pol with tkeyAt := 0 } }
  else d

/-- The 22 staging words of a settings image as a valid entry (R224, R553). -/
def entryOfWords (ws : List Word) : TcEnt :=
  let w (k : Nat) : Nat := (ws.getD k 0).toNat
  let wide (k0 : Nat) : Nat := ((List.range 10).map fun k => w (k0 + k) <<< (32 * k)).foldl (· ||| ·) 0
  { value := BitVec.ofNat 320 (wide 0), mask := BitVec.ofNat 320 (wide 10), prio := w 20 % 256,
    valid := true, action := BitVec.ofNat 32 (w 21) &&& 0x3F#32, hits := 0 }

/-- The sweep reads an entry (R369): a double-bit error invalidates it, is latched and counted, and
the steward writes the entry again from the settings in force. -/
def doTcamSweep (entry : Nat) (find : SweepFind) (d : Dev) : Dev :=
  let d := { d with pol := { d.pol with sweep := (entry + 1) % 4096 } }
  match find with
  | .clean => d
  | .single => d.bump Base.glb F.GLB_SRAM_CE_COUNT
  | .double =>
    let d := d.setTc entry { (d.tcEnt entry) with valid := false }
    let d := (d.bump Base.glb F.GLB_SRAM_UE_COUNT).raise (shared 0x80)
    let d := if d.flag Base.glb F.GLB_SRAM_LAST_VALID then d
      else (d.setFld Base.glb F.GLB_SRAM_LAST_TCAM entry).setCond Base.glb F.GLB_SRAM_LAST_VALID 1 0x28
    match look entry d.boot.set_.tcam with
    | some ws => d.setTc entry (entryOfWords ws)
    | none => d

end Sys2Proof.Machine
end

