-- ==== Sys2Proof/Machine/Port.lean ====
section
/-!
DEFINITION. The host port (chapter "Host port and Ethernet"): the receive checks, the receive pool,
pause and PFC with their watchdogs, gate lists, rate steps, Energy-Efficient Ethernet and loopback.
-/
namespace Sys2Proof.Machine

/-! ### Counter numbers of Table 2-7 -/

def Cnt.framesOk : Nat := 0
def Cnt.octets : Nat := 1
def Cnt.ucast : Nat := 2
def Cnt.mcast : Nat := 3
def Cnt.bcast : Nat := 4
def Cnt.tagged : Nat := 5
def Cnt.runt : Nat := 14
def Cnt.oversize : Nat := 15
def Cnt.symbolErr : Nat := 16
def Cnt.fcsErr : Nat := 17
def Cnt.notSkp : Nat := 18
def Cnt.tagDrop : Nat := 19
def Cnt.ipHdrErr : Nat := 20
def Cnt.udpCsumErr : Nat := 21
def Cnt.noBuf : Nat := 22
def Cnt.pause : Nat := 23
def Cnt.pauseIgnored : Nat := 24
def Cnt.fecFixed : Nat := 25
def Cnt.fecBad : Nat := 26
def Cnt.txOk : Nat := 27
def Cnt.txOctets : Nat := 28
def Cnt.txPause : Nat := 29
def Cnt.txUnderrun : Nat := 30
def Cnt.txGateHeld : Nat := 31

/-! ### The port's condition -/

/-- The envelope in force: 1 Meadow, 2 Heath. -/
def Dev.envelope (d : Dev) : Nat := d.fld Base.pwr F.PWR_STAT_ENVELOPE

/-- The chain is enabled and its pins are active: in the Heath envelope they are not (R453). -/
def Dev.chainOn (d : Dev) : Bool := d.flag Base.glb F.GLB_CHAIN_CTRL_EN && d.envelope != 2

/-- Ports A and B are powered down in the Heath envelope (R21). -/
def Dev.portPowered (d : Dev) (p : PortId) : Bool := p == .c || d.envelope != 2

/-- The port carries frames: enabled, powered, linked, not looped, not in a step or under reset, and
the host port is released (R21, R609, R66, R584, R515). -/
def Dev.portCarries (d : Dev) (p : PortId) : Bool :=
  let b := Base.prt p
  d.boot.running && !d.pw.off && !d.pw.pfActive && !d.io.holdReset && d.portPowered p &&
    d.flag b F.PRT_CTRL_ENABLE && d.flag b F.PRT_STATUS_LINK && !d.flag b F.PRT_STATUS_STEPPING &&
    d.fld b F.PRT_CTRL_LOOP == 0 && !d.resetting (.port p)

def Dev.flowCtl (d : Dev) (p : PortId) : Nat := d.fld (Base.prt p) F.PRT_CTRL_FLOWCTL

/-! ### The receive pool (R40 to R43) -/

/-- Free cells outside the class 7 reserve. -/
def Dev.poolFree (d : Dev) : Nat := 32256 - d.pool

def Dev.reserveFree (d : Dev) : Nat := 512 - d.pool7

/-- Queue a frame for transmission at the end of its class. -/
def Dev.enqueue (d : Dev) (p : PortId) (e : TxEnt) : Dev :=
  d.updPort p fun x => { x with txq := x.txq ++ [e] }

/-- An untagged frame of a class. -/
def Via.bare (cls : Nat) : Via :=
  { cls := cls, tagged := false, pcp := 0, dst := .v4, dscp := 0, ecn := 0, peer := 0 }

/-- Pause and PFC frames stand above every class; gates do not hold them, and only an 802.3 pause of the
partner does (R44). -/
def macControl : Nat := 8

/-- A pause or PFC frame of some quanta. -/
def pauseEnt (classes : BitVec 8) (quanta : Nat) : TxEnt :=
  { via := Via.bare macControl, size := 64, item := .pauseF classes quanta }

/-- The classes a port's pause names: 0 to 6 under PFC, none in an 802.3 frame. -/
def Dev.pauseClasses (d : Dev) (p : PortId) : BitVec 8 := if d.flowCtl p = 2 then 0x7F else 0

/-- A pause switch: it asserts when the free cells fall below one mark, unless a hold-off stands, and
releases when they have come back to the other (R43). -/
def switchPause (on hold low back : Bool) : Bool := if on then !back else !hold && low

/-- The frame a change of the switch sends: all quanta, or none. -/
def switchFrames (was on : Bool) (classes : BitVec 8) : List TxEnt :=
  if was = on then [] else [pauseEnt classes (if on then 0xFFFF else 0)]

/-- A port's pause switches at the present free cells, and the frames they send. -/
def Dev.flowPort (d : Dev) (p : PortId) (x : PortSt) : PortSt :=
  let b := Base.prt p
  let on := switchPause x.ownPause x.ownHold (decide (d.poolFree < d.fld b F.PRT_POOL_XOFF))
    (decide (d.fld b F.PRT_POOL_XON ≤ d.poolFree))
  let on7 := if d.flowCtl p = 2 then
      switchPause x.ownPause7 x.ownHold (decide (d.reserveFree < 64)) (decide (256 ≤ d.reserveFree))
    else x.ownPause7
  { x with
    ownPause := on, ownPause7 := on7,
    txq := x.txq ++ switchFrames x.ownPause on (d.pauseClasses p) ++ switchFrames x.ownPause7 on7 0x80 }

/-- Assert or release one port's pause by the free cells (R43); its pause state stays clear during a step
(R66). -/
def Dev.flowCheckPort (d : Dev) (p : PortId) : Dev :=
  if d.flowCtl p = 0 ∨ d.flag (Base.prt p) F.PRT_STATUS_STEPPING then d else d.updPort p (d.flowPort p)

def Dev.flowCheck (d : Dev) : Dev :=
  ((d.flowCheckPort .a).flowCheckPort .b).flowCheckPort .c

/-- LOW of a port follows the lowest FREE (Table 2-15). -/
def Dev.notePort (d : Dev) (p : PortId) : Dev :=
  if d.poolFree < d.fld (Base.prt p) F.PRT_POOL_FREE_LOW then
    d.setFld (Base.prt p) F.PRT_POOL_FREE_LOW d.poolFree
  else d

def Dev.noteLow (d : Dev) : Dev := ((d.notePort .a).notePort .b).notePort .c

/-- Cells of a frame. -/
def cellsOf (size : Nat) : Nat := ceilDiv size 256

/-- How a frame's cells divide: class 7 takes from the reserve first, other classes never do. -/
def Dev.splitCells (d : Dev) (cls n : Nat) : Nat × Nat :=
  if cls = 7 then (n - min n d.reserveFree, min n d.reserveFree) else (n, 0)

/-- Room in the pool for every cell of a frame (check 9). -/
def Dev.roomFor (d : Dev) (cls n : Nat) : Bool := decide ((d.splitCells cls n).1 ≤ d.poolFree)

/-- Take cells. -/
def Dev.takeCells (d : Dev) (c c7 : Nat) : Dev :=
  ({ d with pool := d.pool + c, pool7 := d.pool7 + c7 }).noteLow.flowCheck

/-- Cells return to the pool (R41). -/
def Dev.giveCells (d : Dev) (c c7 : Nat) : Dev :=
  ({ d with pool := d.pool - c, pool7 := d.pool7 - c7 }).flowCheck

/-! ### Receive checks (Table 2-2) -/

/-- Check 5: R30 and R31. -/
def Dev.tagOk (d : Dev) (p : PortId) (f : Frame) : Bool :=
  match f.tags with
  | [] => !d.flag (Base.prt p) F.PRT_FRAME_TAG_REQ
  | [t] => t.tpid == 0x8100 && (t.vid == 0 || t.vid.toNat == d.fld (Base.prt p) F.PRT_FRAME_DEF_VID)
  | _ => false

/-- Check 6: a frame of Table 2-3. An ARP request or a solicitation counts only when it asks for an address
of the port; an address of 0 is none. With IPV4_EN or IPV6_EN at 0 every frame over that version, PTP over
UDP and ARP (IPv4) among them, fails here and counts in RX_NOT_SKP (DESIGN CHOICE, log entry 109: Table 2-12
names neither the check nor the counter). -/
def Dev.typeOk (d : Dev) (p : PortId) (f : Frame) : Bool :=
  let b := Base.prt p
  let ipOn (v6 : Bool) : Bool := if v6 then d.flag b F.PRT_IP_IPV6_EN else d.flag b F.PRT_IP_IPV4_EN
  match f.body with
  | .udp ip _ dp _ _ => f.dst == .own && dp.toNat == d.fld Base.ses F.SES_CTRL_UDP_PORT && ipOn ip.v6
  | .arp target _ => f.dst == .broadcast && d.ipv4 p != 0 && target.toNat == d.ipv4 p && ipOn false
  | .nsol _ target => (f.dst == .own || f.dst == .solicitedNode) && d.ownIp6 p target.toNat && ipOn true
  | .icmp ip => f.dst == .own && ipOn ip.v6
  | .ptp u _ => (f.dst == .own || f.dst == .ptpMulticast || f.dst == .llMulticast) &&
      (match u with
       | some u => ipOn u.ip.v6
       | none => true)
  | .lldp => f.dst == .llMulticast
  | .pause _ => f.dst == .pauseMulticast
  | .pfc _ => f.dst == .pauseMulticast
  | .other => false

/-- R33 and R34: the destination is one of the port's addresses, or the solicited-node address of one. -/
def Dev.ipHdrOk (d : Dev) (p : PortId) (h : IpHdr) : Bool :=
  if h.v6 then
    h.version == 6 && (h.nextHdr == 17 || h.nextHdr == 58) && h.lenFits && d.dstIp p h != .other
  else
    h.version == 4 && h.ihl == 5 && h.lenFits && !h.mf && h.fragOff == 0 && h.csumOk && d.dstIp p h == .v4

/-- Check 7. -/
def Dev.ipOk (d : Dev) (p : PortId) (b : FrameBody) : Bool :=
  match b with
  | .udp ip _ _ _ _ => d.ipHdrOk p ip
  | .nsol ip _ => d.ipHdrOk p ip
  | .icmp ip => d.ipHdrOk p ip
  | .ptp (some u) _ => d.ipHdrOk p u.ip
  | _ => true

/-- A checksum as R35 judges it: 0x0000 stands for none over IPv4 where UDP0_OK allows it, and always
fails over IPv6. -/
def Dev.udpCsumOk (d : Dev) (p : PortId) (v6 : Bool) (c : UdpCsum) : Bool :=
  match c with
  | .good => true
  | .bad => false
  | .zero => !v6 && d.flag (Base.prt p) F.PRT_IP_UDP0_OK

/-- Check 8 (R35): every UDP datagram, SKP or PTP. -/
def Dev.csumOk (d : Dev) (p : PortId) (b : FrameBody) : Bool :=
  match b with
  | .udp ip _ _ c _ => d.udpCsumOk p ip.v6 c
  | .ptp (some u) _ => d.udpCsumOk p u.ip.v6 u.csum
  | _ => true

/-- Ports A and B run with FEC; on port C it belongs to the PHY and is not counted (Tables 2-1, 2-7). -/
def hasFec (p : PortId) : Bool := p != .c

/-- FEC codewords are counted as they arrive, whatever becomes of the frame (Table 2-7, 25 and 26). -/
def Dev.countFec (d : Dev) (p : PortId) (f : Frame) : Dev :=
  if hasFec p then (d.portCount p Cnt.fecFixed f.fecFixed).portCount p Cnt.fecBad f.fecBad else d

/-- Checks 1 to 8 in order: the counter of the first that fails. -/
def Dev.firstFailure (d : Dev) (p : PortId) (f : Frame) : Option Nat :=
  if f.size < 64 then some Cnt.runt
  else if d.fld (Base.prt p) F.PRT_FRAME_MAXFRM < f.size then some Cnt.oversize
  else if f.symbolErr || (hasFec p && f.fecBad != 0) then some Cnt.symbolErr
  else if !f.fcsOk then some Cnt.fcsErr
  else if f.dst == .foreign then some Cnt.notSkp
  else if !d.tagOk p f then some Cnt.tagDrop
  else if !d.typeOk p f then some Cnt.notSkp
  else if !d.ipOk p f.body then some Cnt.ipHdrErr
  else if !d.csumOk p f.body then some Cnt.udpCsumErr
  else none

/-- Counter of a good frame's size (Table 2-7, 6 to 13). -/
def sizeCounter (n : Nat) : Nat :=
  if n ≤ 64 then 6 else if n ≤ 127 then 7 else if n ≤ 255 then 8 else if n ≤ 511 then 9
  else if n ≤ 1023 then 10 else if n ≤ 1518 then 11 else if n ≤ 4095 then 12 else 13

/-- The counts of a frame that passed every check (R79). -/
def Dev.countGood (d : Dev) (p : PortId) (f : Frame) : Dev :=
  let d := d.portCount p Cnt.framesOk 1
  let o := (d.port p).octRx + f.size
  let d := d.updPort p fun x => { x with octRx := o % 64 }
  let d := d.portCount p Cnt.octets (o / 64)
  let d := d.portCount p
    (match f.dst with
     | .own => Cnt.ucast
     | .broadcast => Cnt.bcast
     | _ => Cnt.mcast) 1
  let d := if f.tags.isEmpty then d else d.portCount p Cnt.tagged 1
  d.portCount p (sizeCounter f.size) 1

/-- The classes PFC leaves paused: each class named is paused, or resumed by a quanta of 0 (R44). -/
def pfcPaused (old : Nat) (times : List (Fin 8 × Nat)) : Nat :=
  times.foldl (fun n t => setBit n t.1.val (t.2 != 0)) old

/-- A pause or PFC frame of the partner (R44 to R46): ignored and counted during a hold-off, whichever
kind it is; otherwise honoured when it is of the kind selected. A quanta of 0 resumes. -/
def Dev.pauseIn (d : Dev) (p : PortId) (b : FrameBody) : Dev :=
  let base := Base.prt p
  let ours : Bool := match b with
    | .pause _ => d.flowCtl p == 1
    | .pfc _ => d.flowCtl p == 2
    | _ => false
  if d.flag base F.PRT_STATUS_PWD_HOLDOFF then d.portCount p Cnt.pauseIgnored 1
  else if !ours then d
  else
    let d := d.portCount p Cnt.pause 1
    match b with
    | .pause q => d.setFld base F.PRT_STATUS_PAUSED (b2n (q != 0))
    | .pfc times =>
      d.setFld base F.PRT_STATUS_PFC_PAUSED (pfcPaused (d.fld base F.PRT_STATUS_PFC_PAUSED) times)
    | _ => d

/-- Nanoseconds of the PTP counter less a path delay, as seconds and nanoseconds. -/
def Dev.stampAt (d : Dev) (less more : Nat) : Nat × Nat :=
  let n := d.ptpNow + more - less
  (n / 1000000000, n % 1000000000)

/-- Sizes of the answers the port hardware gives: an ARP reply is padded to the least frame, a neighbour
advertisement is 14 + 40 + 32 + 4 bytes with its link-layer option, and a tag adds 4 bytes (DESIGN CHOICE,
log entry 80: the spec gives no sizes; TX_OCTETS_64 and R58 use them). -/
def arpSize : Nat := 64

def advSize (tagged : Bool) : Nat := 90 + (if tagged then 4 else 0)

/-- What a port does with a frame that has passed every check and was not dropped by policy. -/
def Dev.acceptFrame (d : Dev) (p : PortId) (f : Frame) (cls act : Nat) : Dev :=
  let pcp := match frameTag f with
    | some t => t.pcp.toNat
    | none => 0
  let via (ip : Option IpHdr) : Via :=
    match ip with
    | some h => { cls := cls, tagged := !f.tags.isEmpty, pcp := pcp, dst := d.dstIp p h,
                  dscp := h.dscp.toNat, ecn := h.ecn.toNat, peer := h.src }
    | none => { Via.bare cls with tagged := !f.tags.isEmpty, pcp := pcp }
  let reply (ip : Option IpHdr) (size : Nat) (i : TxItem) : TxEnt :=
    { via := via ip, size := size, item := i }
  match f.body with
  | .udp ip sp _ _ skp =>
    let c := d.splitCells cls (cellsOf f.size)
    let d := d.takeCells c.1 c.2
    let e : RxEnt :=
      { skp := skp, srcIp := ip.src, srcUdp := sp, v6 := ip.v6, cells := c.1, cells7 := c.2,
        via := via (some ip), act := act, keyNo := none }
    let (d, no) := d.noteKey skp
    d.updPort p fun x => { x with rxq := x.rxq ++ [{ e with keyNo := no }] }
  | .arp _ asker =>
    d.enqueue p { via := { via none with peer := asker }, size := arpSize, item := .arpReply }
  | .nsol ip target =>
    let from_ : DstIp := if target.toNat = d.linkLocal p then .linkLocal else .second
    d.enqueue p { via := { via (some ip) with dst := from_ }, size := advSize (!f.tags.isEmpty),
                  item := .neighbourAdv }
  | .icmp ip =>
    (d.updPort p fun x => { x with icmp := x.icmp + 1 }).enqueue p (reply (some ip) f.size .echoReply)
  | .ptp _ true =>
    d.updPort p fun x => { x with
      rxStamp := some (d.stampAt (d.fld (Base.prt p) F.PRT_PTP_LAT_RX_LAT) 0) }
  | .pause _ => d.pauseIn p f.body
  | .pfc _ => d.pauseIn p f.body
  | _ => d

/-- The echo requests a port passes to the steward are spent for this second (R29). -/
def Dev.icmpSpent (d : Dev) (p : PortId) (b : FrameBody) : Bool :=
  match b with
  | .icmp _ => decide (1000 ≤ (d.port p).icmp)
  | _ => false

/-- Pause and PFC frames are not searched (R213). -/
def isPause (b : FrameBody) : Bool :=
  match b with
  | .pause _ => true
  | .pfc _ => true
  | _ => false

/-- FRAME_RECEIVE (R28): checks 1 to 8, the masked-match search, check 9, the counts and the frame's
handling. A frame that fails leaves nothing but its counter (R11). -/
def doFrameReceive (p : PortId) (f : Frame) (d : Dev) : Dev :=
  if !d.portCarries p then d
  else
    let d := d.countFec p f
    match d.firstFailure p f with
    | some k => d.portCount p k 1
    | none =>
      if d.icmpSpent p f.body then d.portCount p Cnt.notSkp 1
      else if d.resetting .policyMatcher && !isPause f.body then d.portCount p Cnt.noBuf 1
      else
        let (d1, cls, act) := if isPause f.body then (d, d.initialClass p f, 0) else d.tcSearch p f
        if !d1.roomFor cls (cellsOf f.size) then d.portCount p Cnt.noBuf 1
        else
          let d1 := d1.countGood p f
          let skp : Bool := match f.body with
            | .udp _ _ _ _ _ => true
            | _ => false
          if act == 1 && !skp then d1.bump Base.pol F.POL_TC_DROP_COUNT
          else d1.acceptFrame p f cls act

/-! ### Pause timers and watchdogs (R43 to R49) -/

/-- Half of the quanta has passed: the pause frame goes again (R43). -/
def doPauseRepeatTimer (p : PortId) (d : Dev) : Dev :=
  d.updPort p fun x => { x with txq := x.txq ++
    (if x.ownPause then [pauseEnt (d.pauseClasses p) 0xFFFF] else []) ++
    (if x.ownPause7 then [pauseEnt 0x80 0xFFFF] else []) }

/-- The partner holds the port, or one class, paused. -/
def Dev.heldPaused (d : Dev) (p : PortId) (cls : Option (Fin 8)) : Bool :=
  match cls with
  | none => d.flag (Base.prt p) F.PRT_STATUS_PAUSED
  | some c => bit (d.fld (Base.prt p) F.PRT_STATUS_PFC_PAUSED) c.val

/-- The pause watchdog (R45): a pause longer than TIME ms is broken and the hold-off begins. -/
def doPauseWatchdogFire (p : PortId) (cls : Option (Fin 8)) (ms : Nat) (d : Dev) : Dev :=
  let b := Base.prt p
  let time := d.fld b F.PRT_PWD_TIME
  if time ≠ 0 ∧ time < ms ∧ d.heldPaused p cls then
    let d := d.setFld b F.PRT_STATUS_PAUSED 0
    let d := d.setFld b F.PRT_STATUS_PFC_PAUSED 0
    let d := d.setFld b F.PRT_STATUS_PWD_HOLDOFF 1
    (d.raise (shared (0x02 + 8 * p.idx))).report 0x0301 (Unit.port p) 2 ms 1
  else d

/-- The hold-off ends (R47). -/
def doPauseHoldoffEnd (p : PortId) (d : Dev) : Dev :=
  d.setFld (Base.prt p) F.PRT_STATUS_PWD_HOLDOFF 0

/-- A queued frame asserts pause. -/
def TxEnt.asserts (e : TxEnt) : Bool :=
  match e.item with
  | .pauseF _ q => q != 0
  | _ => false

/-- The watchdog on the drive's own pause (R48): the drive stops sending pause, what stands in the transmit
queue included. -/
def doOwnPauseWatchdog (p : PortId) (ms : Nat) (d : Dev) : Dev :=
  let time := d.fld (Base.prt p) F.PRT_PWD_TIME
  let x := d.port p
  if time ≠ 0 ∧ time < ms ∧ (x.ownPause || x.ownPause7) then
    (d.updPort p fun y => { y with
      ownPause := false, ownPause7 := false, ownHold := true,
      txq := y.txq.filter fun e => !e.asserts }).report 0x0301 (Unit.port p) 2 ms 0
  else d

/-- Its hold-off ends: pause may be asserted again (R48). -/
def doOwnPauseHoldoffEnd (p : PortId) (d : Dev) : Dev :=
  (d.updPort p fun x => { x with ownHold := false }).flowCheckPort p

/-- The pause time a received frame granted runs out (R44). -/
def doPauseQuantaExpire (p : PortId) (cls : Option (Fin 8)) (d : Dev) : Dev :=
  let b := Base.prt p
  match cls with
  | none => d.setFld b F.PRT_STATUS_PAUSED 0
  | some c => d.setFld b F.PRT_STATUS_PFC_PAUSED
      (setBit (d.fld b F.PRT_STATUS_PFC_PAUSED) c.val false)

/-! ### Gate control lists (R52 to R58) -/

/-- GATES of the running entry; all open while GATE_EN is 0 (R52). -/
def Dev.gates (d : Dev) (p : PortId) : Nat :=
  if d.flag (Base.prt p) F.PRT_GCL_CTRL_GATE_EN then
    (lookD (2 * (d.port p).gclIdx) 0#32 (d.port p).gclOper).toNat % 256
  else 255

def Dev.gateOpen (d : Dev) (p : PortId) (cls : Nat) : Bool :=
  decide (cls = macControl) || bit (d.gates p) cls

/-- The interval words 0 to ADMIN_LEN - 1 are non-zero and the cycle is legal (R54). -/
def Dev.gclLegal (d : Dev) (p : PortId) : Bool :=
  let b := Base.prt p
  ((List.range (d.fld b F.PRT_GCL_CTRL_ADMIN_LEN)).all fun i =>
      lookD (2 * i + 1) 0#32 (d.port p).gclAdmin != 0) &&
    decide (1000 ≤ d.fld b F.PRT_GCL_CYCLE_NS ∧ d.fld b F.PRT_GCL_CYCLE_NS ≤ 1000000000)

/-- A write of 1 to SWAP_REQ (R54). -/
def doGclSwapReq (p : PortId) (d : Dev) : Dev :=
  let b := Base.prt p
  if d.gclLegal p then d.setFld b F.PRT_GCL_CTRL_PENDING 1
  else d.setCond b F.PRT_GCL_CTRL_GCL_ERR 1 (0x03 + 8 * p.idx)

/-- The swap at a cycle start at or after the base time (R55). -/
def doGclSwap (p : PortId) (d : Dev) : Dev :=
  let b := Base.prt p
  let base := d.fld b F.PRT_GCL_BASE_SEC_SEC * 1000000000 + d.fld b F.PRT_GCL_BASE_NS_NS
  if d.flag b F.PRT_GCL_CTRL_PENDING && decide (base ≤ d.ptpNow) then
    let d := d.updPort p fun x => { x with
      gclOper := x.gclAdmin, gclAdmin := x.gclOper, gclLen := d.fld b F.PRT_GCL_CTRL_ADMIN_LEN,
      gclCycle := d.fld b F.PRT_GCL_CYCLE_NS, gclIdx := 0 }
    d.setFld b F.PRT_GCL_CTRL_PENDING 0
  else d

/-- An entry's interval ends: the next entry runs, the last one holds; the cycle's end starts entry 0
(R57). -/
def doGclEntryExpire (p : PortId) (cycleEnd : Bool) (d : Dev) : Dev :=
  d.updPort p fun x => { x with
    gclIdx := if cycleEnd then 0 else if x.gclIdx + 1 < x.gclLen then x.gclIdx + 1 else x.gclIdx }

/-- What a read of GCL_DATA returns on a path. -/
def Dev.gclDataRead (d : Dev) (p : PortId) (path : ReqPath) : Word :=
  lookD (bitsOf (d.pathReg path (Addr.gclAddr p)) 0 9) 0 (d.port p).gclAdmin

/-- A gate-list word as stored: of word 0 only GATES (Table 2-4; R6: reserved bits stay 0). -/
def gclWord (a : Nat) (v : Word) : Word := if a % 2 = 0 then v &&& 0xFF#32 else v

/-- An access to GCL_DATA: the admin bank's word, refused with GCL_ERR while PENDING (R56); the
address steps. -/
def doGclDataAccess (p : PortId) (path : ReqPath) (w : Option Word) (d : Dev) : Dev :=
  let b := Base.prt p
  let a := bitsOf (d.pathReg path (Addr.gclAddr p)) 0 9
  let d := match w with
    | none => d
    | some v =>
      if d.flag b F.PRT_GCL_CTRL_PENDING then
        d.setCond b F.PRT_GCL_CTRL_GCL_ERR 1 (0x03 + 8 * p.idx)
      else d.updPort p fun x => { x with gclAdmin := putD a 0 (gclWord a v) x.gclAdmin }
  d.setPathReg path (Addr.gclAddr p) (BitVec.ofNat 32 ((a + 1) % 512))

/-! ### Links, rate steps and EEE (R62 to R67, R609) -/

/-- Another fabric port is in a step (R64). -/
def Dev.otherStepping (d : Dev) (p : PortId) : Bool :=
  match p with
  | .a => d.flag (Base.prt .b) F.PRT_STATUS_STEPPING
  | .b => d.flag (Base.prt .a) F.PRT_STATUS_STEPPING
  | .c => false

/-- A step begins: the link drops for renegotiation, pause and PFC state clears (R66). -/
def Dev.beginStep (d : Dev) (p : PortId) (down : Bool) : Dev :=
  let b := Base.prt p
  let d := d.setFld b F.PRT_STATUS_LINK 0
  let d := d.setFld b F.PRT_STATUS_RATE 0
  let d := d.setFld b F.PRT_STATUS_PAUSED 0
  let d := d.setFld b F.PRT_STATUS_PFC_PAUSED 0
  let d := d.setFld b F.PRT_STATUS_LPI 0
  let d := d.setFld b F.PRT_STATUS_STEPPING 1
  d.updPort p fun x => { x with stepped := down, ownPause := false, ownPause7 := false }

/-- The mode of the lower rate: 50 Gb/s on a fabric port, 2.5 Gb/s on port C (R62, R65). -/
def lowMode (p : PortId) : Nat := if p = .c then 3 else 2

/-- The port stands ready for a step down or up: enabled by STEP_EN, linked at the rate it leaves, the
partner able (R62, R63, R65). -/
def Dev.mayStep (d : Dev) (p : PortId) (down : Bool) : Bool :=
  let b := Base.prt p
  d.flag b F.PRT_CTRL_STEP_EN && d.flag b F.PRT_STATUS_LINK && !d.flag b F.PRT_STATUS_STEPPING &&
    (if down then d.fld b F.PRT_STATUS_RATE == 1 && (d.port p).lowAdv
     else (d.port p).stepped && d.fld b F.PRT_STATUS_RATE == lowMode p)

/-- The condition for a step at a load, in percent of the lower rate. -/
def Dev.wantsStep (d : Dev) (p : PortId) (down : Bool) (loadPct : Nat) : Bool :=
  let b := Base.prt p
  d.mayStep p down &&
    (if down then decide (loadPct < d.fld b F.PRT_STEP_DOWN_PCT)
     else decide (d.fld b F.PRT_STEP_UP_PCT < loadPct))

/-- A waiting step of a fabric port begins when the other port is in none and it still may step. -/
def Dev.beginWaiting (d : Dev) (p : PortId) : Dev :=
  match (d.port p).stepWait with
  | none => d
  | some down =>
    if d.otherStepping p then d
    else
      let d := d.updPort p fun x => { x with stepWait := none }
      if d.mayStep p down then d.beginStep p down else d

/-- Only one fabric port steps at a time, port A first (R64). -/
def Dev.beginSteps (d : Dev) : Dev := (d.beginWaiting .a).beginWaiting .b

/-- The other fabric port. -/
def otherPort : PortId → Option PortId
  | .a => some .b | .b => some .a | .c => none

/-- A port meets the condition for a step: it waits for its turn. -/
def Dev.askStep (d : Dev) (p : PortId) (down : Bool) (loadPct : Nat) : Dev :=
  if d.wantsStep p down loadPct then d.updPort p fun x => { x with stepWait := some down } else d

/-- RATE_STEP_DOWN and RATE_STEP_UP: `other` is the load of the other fabric port when it too has met the
condition's dwell at this moment. -/
def Dev.rateStep (d : Dev) (p : PortId) (down : Bool) (loadPct : Nat) (other : Option Nat) : Dev :=
  match otherPort p with
  | none => if d.wantsStep p down loadPct then d.beginStep p down else d
  | some q =>
    let d := d.askStep p down loadPct
    let d := match other with
      | some l => d.askStep q down l
      | none => d
    d.beginSteps

/-- A port whose load has stayed below DOWN_PCT for DWELL seconds steps down (R62, R64, R65). -/
def doRateStepDown (p : PortId) (loadPct : Nat) (other : Option Nat) (d : Dev) : Dev :=
  d.rateStep p true loadPct other

/-- A stepped-down port whose load exceeds UP_PCT steps back up (R63). -/
def doRateStepUp (p : PortId) (loadPct : Nat) (other : Option Nat) (d : Dev) : Dev :=
  d.rateStep p false loadPct other

/-- The link goes down; what trains next is not stepped. -/
def Dev.linkDown (d : Dev) (p : PortId) : Dev :=
  let b := Base.prt p
  let was := d.flag b F.PRT_STATUS_LINK
  let d := d.setFld b F.PRT_STATUS_LINK 0
  let d := d.setFld b F.PRT_STATUS_RATE 0
  let d := d.setFld b F.PRT_STATUS_LPI 0
  let d := d.setFld b F.PRT_STATUS_PAUSED 0
  let d := d.setFld b F.PRT_STATUS_PFC_PAUSED 0
  let d := d.setFld b F.PRT_STATUS_STEPPING 0
  let d := d.updPort p fun x => { x with stepped := false, stepWait := none }
  if was then d.raise (shared (8 * p.idx)) else d

/-- The port may train its link. -/
def Dev.mayLink (d : Dev) (p : PortId) : Bool :=
  d.boot.running && d.portPowered p && d.flag (Base.prt p) F.PRT_CTRL_ENABLE && !d.resetting (.port p)

/-- The mode a trained link may run in: the lower rate while a step down has withdrawn the higher one, the
higher rate at a step back up, and otherwise that of SPEED, any of Table 2-1 when SPEED is auto (R609, R62,
R63, R65). -/
def Dev.modeOk (d : Dev) (p : PortId) (mode : Nat) : Bool :=
  let s := d.fld (Base.prt p) F.PRT_CTRL_SPEED
  if (d.port p).stepped then mode == lowMode p
  else if d.flag (Base.prt p) F.PRT_STATUS_STEPPING then mode == 1
  else decide (1 ≤ mode ∧ mode ≤ 4) && (s == 0 || s == mode)

/-- LINK_CHANGE: the link comes up in a mode, or goes down with mode 0 (R609). In a step the link is down
already, and the other fabric port's step waits until it is up again (R64). The power contract of port C is not
affected (R421). -/
def doLinkChange (p : PortId) (mode : BitVec 3) (lowAdv eeeAdv : Bool) (d : Dev) : Dev :=
  let b := Base.prt p
  if mode = 0 then if d.flag b F.PRT_STATUS_STEPPING then d else d.linkDown p
  else if d.mayLink p && d.modeOk p mode.toNat then
    let was := d.flag b F.PRT_STATUS_LINK
    let d := d.setFld b F.PRT_STATUS_LINK 1
    let d := d.setFld b F.PRT_STATUS_RATE mode.toNat
    let d := d.setFld b F.PRT_STATUS_STEPPING 0
    let d := d.updPort p fun x => { x with lowAdv := lowAdv, eeeAdv := eeeAdv }
    let d := if was then d else d.raise (shared (8 * p.idx))
    (d.flowCheckPort p).beginSteps
  else d

/-- The fragment of a session by epoch, message number and index. -/
def Ctx.frag (c : Ctx) (ep seq idx : Nat) : Option OutFrag :=
  c.out.find? fun f => f.seq == seq && f.idx == idx && f.epoch == ep

/-- A queued fragment is retained no longer: nothing of it goes on the wire. -/
def Dev.stale (d : Dev) (e : TxEnt) : Bool :=
  match e.item with
  | .skp sid ep seq idx => ((d.ctx sid).bind fun c => c.frag ep seq idx).isNone
  | _ => false

/-- The frames a port has to send. -/
def Dev.toSend (d : Dev) (p : PortId) : List TxEnt := (d.port p).txq.filter fun e => !d.stale e

/-- Port C signals low-power idle after its transmit queue has been empty long enough (R67). -/
def doEeeLpiEnter (p : PortId) (d : Dev) : Dev :=
  let b := Base.prt p
  if p == .c && d.flag b F.PRT_CTRL_EEE_EN && (d.port p).eeeAdv && (d.toSend p).isEmpty &&
      d.flag b F.PRT_STATUS_LINK then
    d.setFld b F.PRT_STATUS_LPI 1
  else d

/-- A write to PRT_x_CTRL.ENABLE (R609; R21 for ports A and B in the Heath envelope, where the port is
down already and the write takes effect later). -/
def doPortEnableWrite (p : PortId) (en : Bool) (d : Dev) : Dev :=
  let d := d.setFld (Base.prt p) F.PRT_CTRL_ENABLE (b2n en)
  if en then d else d.linkDown p

/-! ### Loopback (R584 to R586) -/

/-- A write to PRT_x_CTRL.LOOP; 0b11 is reserved. On ports A and B in the Heath envelope the field takes the
value, but it has no effect until the drive next runs in the Meadow envelope (R21, R585). Leaving loopback
trains the link again. -/
def doLoopSet (p : PortId) (mode : BitVec 2) (d : Dev) : Dev :=
  if mode = 3 then d
  else
    let was := d.fld (Base.prt p) F.PRT_CTRL_LOOP
    let d := d.setFld (Base.prt p) F.PRT_CTRL_LOOP mode.toNat
    if was ≠ 0 ∧ mode = 0 then d.linkDown p else d

/-- LIMIT_S seconds after the write that set it, LOOP returns to 0 and the link trains again (R585). -/
def doLoopTimeout (p : PortId) (d : Dev) : Dev :=
  if d.fld (Base.prt p) F.PRT_CTRL_LOOP ≠ 0 then
    (d.setFld (Base.prt p) F.PRT_CTRL_LOOP 0).linkDown p
  else d

/-- A write of GO in near-end loopback sends FRAMES test frames and compares what returns (R586). -/
def doLbtGo (p : PortId) (received bad : Nat) (d : Dev) : Dev :=
  let b := Base.prt p
  if d.fld b F.PRT_CTRL_LOOP = 1 ∧ d.portPowered p then
    let sent := d.fld b F.PRT_LBT_CTRL_FRAMES
    let got := min received sent
    let bad := min bad got
    let d := d.setFld b F.PRT_LBT_STAT_SENT sent
    let d := d.setFld b F.PRT_LBT_STAT_RECEIVED got
    let d := d.setFld b F.PRT_LBT_ERR_BAD bad
    let d := d.setFld b F.PRT_LBT_ERR_DONE 1
    d.setFld b F.PRT_LBT_ERR_PASS (b2n (got == sent && bad == 0))
  else d

/-! ### Front cache by command (R76) -/

/-- Empty the front cache. -/
def Dev.fcEmpty (d : Dev) : Dev := d.updDisp fun x => { x with fc := [] }

/-- A write of 1 to DSP_FC_CTRL.FLUSH. -/
def doFcFlush (d : Dev) : Dev := d.fcEmpty

end Sys2Proof.Machine
end

