-- ==== Sys2Proof/Machine/Command.lean ====
section
/-!
DEFINITION. Commands and their responses: permissions (R133 to R135), releasing what a command holds
(R174, R179), the deferred record (R147, R197, R198), and generating a response message and its
fragments (R85, R88, R93, R144).
-/
namespace Sys2Proof.Machine

/-! ### Permissions -/

def Dev.profileOf (d : Dev) (k : Nat) : ProfileDef :=
  (look k d.boot.set_.profiles).getD { mask := 0, map := 0 }

/-- The session holds a permission bit; bits 4 to 8 need an ADMIN session (R133). -/
def Dev.hasPerm (d : Dev) (c : Ctx) (k : Nat) : Bool :=
  bit (d.profileOf c.profile).mask k && (decide (k < 4) || c.admin)

/-- The key space is covered by the profile and defined in the settings image, and its data key
unwraps (R134, R318). -/
def Dev.hasSpace (d : Dev) (c : Ctx) (space : Nat) : Bool :=
  decide (space < 256) && (d.profileOf c.profile).map.getLsbD space && (look space d.boot.set_.spaces).isSome &&
    !((look space d.boot.keys).map (·.unwrapBad)).getD false

/-- An admin session of a key space (R135). -/
def Dev.adminOf (d : Dev) (c : Ctx) (space : Nat) : Bool :=
  c.st == .opened && c.admin && decide (space < 256) && (d.profileOf c.profile).map.getLsbD space &&
    bit (d.profileOf c.profile).mask 2

/-! ### What a data request asks for -/

def Cmd.block (c : Cmd) : Block := blockOf c.payload

/-- The value bytes of a write, as far as they have come. -/
def Cmd.data (c : Cmd) : List Byte := dataOf c.payload

/-- LEN of the request. -/
def Cmd.len (c : Cmd) : Nat := c.block.len

/-- A part of a stream other than the last (R152). -/
def Cmd.midPart (c : Cmd) : Bool := c.op == Op.putStream && c.block.offset + c.len != c.block.aux

def Cmd.isRange (c : Cmd) : Bool := c.op == Op.writeRange || c.op == Op.append

/-- Bytes of one piece of a range write (R160). -/
def pieceBytes : Nat := 1048576

/-- Bytes of a range write applied so far (R196). -/
def Cmd.goodBytes (c : Cmd) : Nat := min c.len ((c.pieces.map (·.2)).foldl max 0 * pieceBytes)

/-! ### Reservations (R174, R177, R179) -/

/-- P(S) of Table 5-2 for a value of n bytes. -/
def physOf (n : Nat) : Nat := ceilDiv (sheavesOf n * 4112) 512 * 512

/-- Length of a stored value and the physical bytes charged for it: a packed value that has drained is
charged its sealed bytes alone, in units of 512 (R179, R282). -/
def KeyEnt.charge (k : KeyEnt) : Nat × Nat :=
  (k.value.length,
   if k.drained then min (physOf k.value.length) (ceilDiv (k.value.length + 16 * sheavesOf k.value.length) 512 * 512)
   else physOf k.value.length)

/-- Add to an entry of a table of counts. -/
def addAt (k n : Nat) (t : Tbl Nat) : Tbl Nat := putD k 0 (lookD k 0 t + n) t

def subAt (k n : Nat) (t : Tbl Nat) : Tbl Nat := putD k 0 (lookD k 0 t - n) t

/-- Add to an entry of a table of balances. -/
def addInt (k : Nat) (v : Int) (t : Tbl Int) : Tbl Int := putD k 0 (lookD k 0 t + v) t

/-- PFREE of a swath: the balance of its value pool less X, the metadata bytes beyond their reserve (R282). -/
def Dev.pfreeOf (d : Dev) (n : Fin 16) : Int := lookD n.val 0 d.disp.pfree - (d.sw n).metaOver

/-- The tag and the queue slots return (R174), and the holds that stood behind the command take effect (R235). -/
def Dev.freeTag (d : Dev) (cid : Nat) : Dev :=
  match d.cmd cid with
  | none => d
  | some c =>
    let d := d.updDisp fun x => { x with
      tags := if c.hasTag then x.tags - 1 else x.tags,
      slots := c.slotsOn.foldl (fun t n => subAt n.val 1 t) x.slots }
    let d := c.slotsOn.foldl (fun d n => d.updSw n fun s =>
      { s with haz := s.haz.filter fun h => h.item != .cmd cid }) d
    let d := d.updCmd cid fun x => { x with hasTag := false, slotsOn := [] }
    c.slotsOn.foldl Dev.holdsAt d

/-- The reservation of a command at an owner settles between an old charge and a new length: the new length is
charged, the old one and any excess return, and a key reserved is kept when the command has created the key
(R179). -/
def Dev.settleAt (d : Dev) (n : Fin 16) (cid : Nat) (c : Cmd) (old : Option (Nat × Nat)) (newLen : Option Nat) : Dev :=
  let mine := c.chargedOn.contains n
  let key := c.keyHeld.contains n
  let l := if mine then c.chargeL else 0
  let p := if mine then c.chargeP else 0
  let (ol, op) := old.getD (0, 0)
  let nl := newLen.getD 0
  let back := b2n (key && old.isSome) + b2n (old.isSome && newLen.isNone)
  let d := d.updDisp fun x => { x with
    lfree := putD n.val 0 (lookD n.val 0 x.lfree + l + ol - nl) x.lfree,
    pfree := addInt n.val ((p : Int) + op - physOf nl) x.pfree,
    kfree := putD n.val 0 (lookD n.val 0 x.kfree + back) x.kfree }
  d.updCmd cid fun x => { x with
    chargedOn := x.chargedOn.filter (· != n), keyHeld := x.keyHeld.filter (· != n) }

/-- What a command still has reserved at an owner returns; a range write of which pieces are applied there
settles against the value before the first of them (R179). -/
def Dev.freeAt (d : Dev) (n : Fin 16) (cid : Nat) (c : Cmd) : Dev :=
  if lookD n.val 0 c.pieces = 0 then
    (d.updDisp fun x => { x with
      lfree := addAt n.val c.chargeL x.lfree, pfree := addInt n.val c.chargeP x.pfree,
      kfree := if c.keyHeld.contains n then addAt n.val 1 x.kfree else x.kfree }).updCmd cid fun x =>
        { x with chargedOn := x.chargedOn.filter (· != n), keyHeld := x.keyHeld.filter (· != n) }
  else
    d.settleAt n cid c (look n.val c.base) (((d.sw n).find c.space c.key).map fun k => k.value.length)

/-- Everything a refused or aborted command reserved returns (R179). -/
def Dev.freeCharges (d : Dev) (cid : Nat) : Dev :=
  match d.cmd cid with
  | none => d
  | some c => c.chargedOn.foldl (fun d n => d.freeAt n cid c) d

/-- The buffer units a command fills return to FREE; units that hold a switched piece stay. -/
def Dev.freeUnits (d : Dev) (cid : Nat) : Dev :=
  match d.cmd cid with
  | none => d
  | some c =>
    let d := c.units.foldl (fun d u => d.updSw u.1 fun s => { s with
      units := s.units.filter fun e => !(e.1 == u.2 && e.2.cid == some cid && e.2.st != .held) }) d
    d.updCmd cid fun x => { x with units := [] }

/-- The receive-pool cells of frames return (R41). -/
def Dev.giveHeld (d : Dev) (l : List CellHold) : Dev :=
  d.giveCells (l.map (·.c)).sum (l.map (·.c7)).sum

/-- A write's receive-pool cells return (R41). -/
def Dev.freeCells (d : Dev) (cid : Nat) : Dev :=
  match d.cmd cid with
  | none => d
  | some c => (d.giveHeld c.held).updCmd cid fun x => { x with held := [] }

/-- An open stream's reservation returns and its units are freed (R155). -/
def Dev.dropStream (d : Dev) (s : Stream) : Dev :=
  let d := d.updDisp fun x => { x with
    lfree := s.owners.foldl (fun t n => addAt n.val s.chargeL t) x.lfree,
    pfree := s.owners.foldl (fun t n => addInt n.val s.chargeP t) x.pfree,
    kfree := s.keyHeld.foldl (fun t n => addAt n.val 1 t) x.kfree }
  s.owners.foldl (fun d n => d.updSw n fun x => { x with
    units := x.units.filter fun u =>
      !(u.2.cid.isNone && u.2.early && u.2.space == s.space && u.2.key == s.key && u.2.ver == s.ver) }) d

/-- The open streams of a session that name a key. -/
def streamsOf (c : Ctx) (space : Nat) (key : List Byte) : List Stream :=
  c.streams.filter fun s => s.space == space && s.key == key

/-- A session's streams for a key are abandoned. -/
def Dev.abandonStream (d : Dev) (sid space : Nat) (key : List Byte) : Dev :=
  match d.ctx sid with
  | none => d
  | some c =>
    let d := (streamsOf c space key).foldl (fun d s => d.dropStream s) d
    d.updCtx sid fun x => { x with
      streams := x.streams.filter fun s => !(s.space == space && s.key == key) }

/-- Nothing of a command remains reserved: it leaves the dispatcher, the hedgerow and the swaths. -/
def Dev.releaseAll (d : Dev) (cid : Nat) : Dev :=
  let d := (((d.freeTag cid).freeCharges cid).freeUnits cid).freeCells cid
  let d := match d.cmd cid with
    | some c => d.leaveKey c.keyNo
    | none => d
  d.updDisp fun x => { x with
    wait := x.wait.filter (· != cid), inbox := x.inbox.filter (· != cid),
    inbound := x.inbound.filter fun e => e.2 != cid }

/-! ### The deferred record -/

/-- The entry waits for a session: its own, or any admin session of its key space once its session is
gone (R197, R198). -/
def Dev.defWaits (d : Dev) (sid : Nat) (c : Ctx) (e : DefEnt) : Bool :=
  !e.delivered && (if e.orphan then d.adminOf c e.space else e.sid == sid)

/-- The oldest entry of a list. -/
def oldestDef : List (Nat × DefEnt) → Option (Nat × DefEnt)
  | [] => none
  | h :: t =>
    match oldestDef t with
    | none => some h
    | some b => if b.2.order < h.2.order then some b else some h

/-- The 24-byte record of Table 4-11. -/
def defRecord (e : DefEnt) (waiting : Nat) : List Byte :=
  be 2 e.tag ++ be 1 e.status ++ be 1 (min waiting 255) ++ be 4 e.seq ++ be 8 e.hash.toNat ++
    be 2 e.space ++ zeros 2 ++ be 4 e.good

/-- The record the next response to a session carries, delivered once (R197). -/
def Dev.takeDeferred (d : Dev) (sid : Nat) (c : Ctx) : Dev × List Byte :=
  let w := d.disp.defLog.filter fun e => d.defWaits sid c e.2
  match oldestDef w with
  | none => (d, [])
  | some (i, e) =>
    (d.updDisp fun x => { x with defLog := put i { e with delivered := true } x.defLog },
      defRecord e (w.length - 1))

/-- The index a new entry takes: the lowest free one, or that of the oldest DELIVERED entry (R199). -/
def Dev.defIndex (d : Dev) : Option Nat :=
  if d.disp.defLog.length < 16384 then some (firstGap 0 d.disp.defLog)
  else (oldestDef (d.disp.defLog.filter fun e => e.2.delivered)).map (·.1)

/-- Enter a deferred error (R195, R199, R200). A command whose session is gone carries its number plus
65,536 (`Dev.orphanCmds`). -/
def Dev.deferError (d : Dev) (tag status seq : Nat) (hash : DWord) (space good sid : Nat) : Dev :=
  match d.defIndex with
  | none =>
    ((d.bump Base.dsp F.DSP_DEF_LOST_COUNT).raise (shared 0x32)).report 0x0401 Unit.dispatcher 3 0 hash.toNat
  | some i =>
    let orphan := match d.ctx sid with
      | some c => c.st == .closing || c.st == .opening
      | none => true
    let e : DefEnt := { tag := tag, status := status, seq := seq, hash := hash, space := space,
                        good := good, sid := sid % 65536, delivered := false, orphan := orphan,
                        order := d.disp.defNo }
    (d.updDisp fun x => { x with defLog := put i e x.defLog, defNo := x.defNo + 1 }).raise (shared 0x30)

/-! ### Response messages -/

/-- A message to be sent. `need` gives, for the payload bytes up to an offset, how many sheaves must
have been opened. -/
structure Msg where
  op      : Nat
  status  : Nat
  space   : Nat
  tag     : Nat
  more    : Bool
  payload : List Byte
  via     : Via
  reqSeq  : Option Nat
  cid     : Option Nat
  swath   : Option Nat
  ownRec  : Option (List Byte)
  about   : Option (Nat × DWord) := none
  cred    : Bool := false      -- a refusal whose request holds a credit until it is sent (R103)
  base    : Option Nat := none -- byte of the value with which its data begins, after its value block

/-- The largest UDP payload of a frame (R37). -/
def Dev.maxUdp (d : Dev) (p : PortId) (v6 : Bool) : Nat :=
  d.fld (Base.prt p) F.PRT_FRAME_MAXFRM - 22 - (if v6 then 40 else 20) - 8

/-- Frame length from the destination address to the FCS of a UDP payload. -/
def frameSize (v6 tagged : Bool) (udp : Nat) : Nat :=
  let n := 18 + (if tagged then 4 else 0) + (if v6 then 40 else 20) + 8 + udp
  max 64 n

/-- Payload pieces of a message: full fragments and a last one; one empty piece when there is no
payload (R86, R88). -/
def pieces (size : Nat) (payload : List Byte) : List (List Byte) :=
  if payload.isEmpty then [[]] else chunks (max 1 size) (payload.length + 1) payload

/-- The fragments of a message, from index i and offset off. -/
def fragsOf (m : Msg) (seq total count epoch : Nat) (deferred : Bool) (need : Nat → Nat) :
    Nat → Nat → List (List Byte) → List OutFrag
  | _, _, [] => []
  | i, off, p :: t =>
    { seq := seq, idx := i, count := count, msgLen := total, off := off, payload := p, tag := m.tag,
      op := m.op, status := m.status, space := m.space, more := m.more, deferred := deferred,
      epoch := epoch, via := m.via, reqSeq := m.reqSeq, cid := m.cid,
      last := !m.more && m.reqSeq.isSome && t.isEmpty, need := need (off + p.length), swath := m.swath, about := m.about,
      sent := 0, good := false, cut := false, ackAt := 0, rekeyAt := none, tries := 0, wire := [],
      cred := m.cred && t.isEmpty,
      dataAt := m.base.map fun b => b + (off - ((if deferred then 24 else 0) + 40)) } ::
    fragsOf m seq total count epoch deferred need (i + 1) (off + p.length) t

/-- The next number of the drive's series is not kept for the messages that end the epoch (R114). -/
def Ctx.numberLeft (c : Ctx) : Bool := !c.isSealed || decide (c.txNext < 0xFF000000)

/-- Number a message in the drive's series, cut it and queue its fragments (R88, R93, R98). A response
takes the record that waits for its session (R197); `need` counts from the message's own payload. A message that
answers no request takes no number kept for the end of the epoch and is not sent then (R114; DESIGN CHOICE, log
entry 112: the spec does not say what becomes of it). -/
def Dev.send (d : Dev) (sid : Nat) (m : Msg) (need : Nat → Nat) : Dev :=
  match d.ctx sid with
  | none => d
  | some c =>
    if m.reqSeq.isNone && !c.numberLeft then d else
    let (d, r) := match m.ownRec with
      | some r => (d, r)
      | none => if m.reqSeq.isSome then d.takeDeferred sid c else (d, [])
    let body := r ++ m.payload
    let ps := pieces (maxFrag (d.maxUdp c.port c.v6) c.isSealed) body
    let seq := c.txNext
    let fs := fragsOf m seq body.length ps.length c.epoch (!r.isEmpty)
      (fun e => need (e - r.length)) 0 0 ps
    let d := d.updCtx sid fun x => { x with
      out := x.out ++ fs, txNext := nextSeq c.isSealed c.txNext }
    let d := match m.cid with
      | some cid => d.updCmd cid fun x => { x with
          respSeqs := x.respSeqs ++ [seq], started := true, answered := !m.more }
      | none => d
    fs.foldl (fun d f => d.enqueue c.port
      { via := m.via, size := frameSize c.v6 m.via.tagged (udpLenOf f.payload.length c.isSealed),
        item := .skp sid f.epoch seq f.idx }) d

/-! ### Received numbers (R95) -/

/-- RX_ACK moves over the numbers received in full. -/
def advanceAck (isSealed : Bool) : Nat → Nat → List Nat → Nat × List Nat
  | 0, a, l => (a, l)
  | f + 1, a, l =>
    if l.contains (nextSeq isSealed a) then
      advanceAck isSealed f (nextSeq isSealed a) (l.filter (· != nextSeq isSealed a))
    else (a, l)

/-- The number counts as received in full. -/
def Ctx.received (c : Ctx) (seq : Nat) : Bool := seqUpTo c.isSealed seq c.rxAck || c.rxDone.contains seq

/-- A number has been received in full. -/
def Ctx.markDone (c : Ctx) (seq : Nat) : Ctx :=
  if c.received seq then c
  else
    let l := insertNat seq c.rxDone
    let r := advanceAck c.isSealed l.length c.rxAck l
    { c with rxAck := r.1, rxDone := r.2 }

/-- The message of a number, while its fragments come in. -/
def Ctx.msg (c : Ctx) (seq : Nat) : Option InMsg := c.msgs.find? fun m => m.seq == seq

/-- The message enters or takes the place of its former self. -/
def Ctx.setMsg (c : Ctx) (m : InMsg) : Ctx :=
  if c.msgs.any fun x => x.seq == m.seq then
    { c with msgs := c.msgs.map fun x => if x.seq == m.seq then m else x }
  else { c with msgs := c.msgs ++ [m] }

/-! ### From the receive pool into the protected buffer (R41, R186) -/

/-- Buffer units that the sheaves of n value bytes take. -/
def unitsFor (n : Nat) : Nat := ceilDiv (sheavesOf n * 4112) 65536

/-- Payload bytes that have come without a gap. -/
def prefixLen (frags : List (Nat × Nat × List Byte)) : Nat → Nat → Nat
  | 0, at_ => at_
  | f + 1, at_ =>
    match frags.find? fun x => x.2.1 == at_ && !x.2.2.isEmpty with
    | some x => prefixLen frags f (at_ + x.2.2.length)
    | none => at_

/-- Value bytes of a write that have been received without a gap before them. -/
def Dev.received (d : Dev) (c : Cmd) : Nat :=
  if c.gotAll then c.len
  else
    match (d.ctx c.sid).bind fun x => x.msg c.seq with
    | some m => prefixLen m.frags m.frags.length 0 - (32 + c.key.length)
    | none => 0

/-- Sheaves sealed once k buffer units are full, of a write of n bytes. -/
def sealedBy (n k : Nat) : Nat := min (sheavesOf n) (ceilDiv (k * 65536) 4112)

/-- Sheaves of a write sealed into its first k buffer units, as far as its data has come. -/
def Dev.sealedFor (d : Dev) (c : Cmd) (k : Nat) : Nat :=
  min (sealedBy c.len k) (if c.gotAll then sheavesOf c.len else d.received c / 4096)

/-- Value bytes for which every owner has taken a buffer unit; a write without data needs none. -/
def Cmd.bufferRoom (c : Cmd) : Nat :=
  if c.owners.isEmpty then 0
  else
    let k := (c.owners.map fun n => lookD n.val 0 c.taken).foldl min (unitsFor c.len)
    if unitsFor c.len ≤ k then c.len else k * 65536 / 4112 * 4096

/-- Payload bytes of a write that have passed to the session engine or into the buffer of every owner. -/
def Dev.passedBytes (d : Dev) (c : Cmd) : Nat := 32 + c.key.length + min (d.received c) c.bufferRoom

/-- The receive-pool cells of a frame return once its payload has passed on (R41). -/
def Dev.drainCells (d : Dev) (cid : Nat) : Dev :=
  match d.cmd cid with
  | none => d
  | some c =>
    let gone (h : CellHold) : Bool := decide (h.off + h.len ≤ d.passedBytes c)
    (d.giveHeld (c.held.filter gone)).updCmd cid fun x => { x with held := x.held.filter fun h => !gone h }

/-- The message leaves. -/
def Ctx.dropMsg (c : Ctx) (seq : Nat) : Ctx := { c with msgs := c.msgs.filter fun m => m.seq != seq }

/-- A message leaves the receive side: its cells return, and a key whose result nobody will take leaves. -/
def Dev.dropMsg (d : Dev) (sid seq : Nat) : Dev :=
  match d.ctx sid with
  | none => d
  | some c =>
    match c.msg seq with
    | none => d
    | some m =>
      let d := (d.updCtx sid fun x => x.dropMsg seq).giveHeld m.held
      if m.cid.isNone then d.leaveKey m.keyNo else d

/-- The drive takes no further fragment of a request: it counts as received in full (R95). -/
def Dev.settle (d : Dev) (sid seq : Nat) : Dev :=
  (d.dropMsg sid seq).updCtx sid fun x => x.markDone seq

/-- The last response message of a command has been generated: tag and slots return (R174), a request that
still lacks fragments counts as received in full (R95), and a command whose session is gone leaves. -/
def Dev.finish (d : Dev) (cid : Nat) : Dev :=
  match d.cmd cid with
  | none => d
  | some c =>
    let d := (((d.freeTag cid).freeCharges cid).freeCells cid).updCmd cid fun x => { x with st := .complete }
    let d := if c.gotAll then d else d.settle c.sid c.seq
    let d := d.updDisp fun x => { x with
      wait := x.wait.filter (· != cid), inbox := x.inbox.filter (· != cid),
      inbound := x.inbound.filter fun e => e.2 != cid }
    let d := if isData c.op && d.flag Base.glb F.GLB_START_STAT_READY then
        { d with io := { d.io with ledAct := true } } else d
    if (d.ctx c.sid).isNone then (d.freeUnits cid).dropCmd cid else d

/-- A response of a command, with what its fragments wait for. -/
def Dev.answerNeed (d : Dev) (cid status : Nat) (payload : List Byte) (more : Bool)
    (swath : Option Nat) (ownRec : Option (List Byte)) (need : Nat → Nat) : Dev :=
  match d.cmd cid with
  | none => d
  | some c =>
    let d := d.send c.sid
      { op := c.op, status := status, space := c.space, tag := c.tag, more := more,
        payload := payload, via := c.via, reqSeq := some c.seq, cid := some cid, swath := swath,
        ownRec := ownRec, about := if swath.isSome then some (c.space, c.hash) else none,
        base := if swath.isSome then some (fieldBe payload 32 4) else none } need
    if more then d else d.finish cid

/-- A response of a command. -/
def Dev.answer (d : Dev) (cid status : Nat) (payload : List Byte) : Dev :=
  d.answerNeed cid status payload false none none (fun _ => 0)

/-- Where a paired range write stops with more pieces applied on one copy, that copy runs ahead (R194, R269). -/
def Dev.leadAhead (d : Dev) (c : Cmd) : Dev :=
  match c.owners with
  | [a, b] =>
    let x := lookD a.val 0 c.pieces
    let y := lookD b.val 0 c.pieces
    if x = y then d
    else d.updSw (if y < x then a else b) fun s =>
      match s.find c.space c.key with
      | some k =>
        let k := { k with ahead := true }
        let s' := (s.setKey k).pairRec 7 0 k
        if s'.ringFits then s' else s.setKey k
      | none => s
  | _ => d

/-- A range write stops after some of its pieces have been applied: its response carries the status, DEFERRED
and its own record, which the log holds as delivered (R196). -/
def Dev.stopPart (d : Dev) (cid : Nat) (c : Cmd) (status : Nat) : Dev :=
  let e : DefEnt := { tag := c.tag, status := status, seq := c.seq, hash := c.hash, space := c.space,
                      good := c.goodBytes, sid := c.sid % 65536, delivered := true, orphan := false,
                      order := d.disp.defNo }
  let d := (d.leadAhead c).releaseAll cid
  let d := match d.defIndex with
    | none => ((d.bump Base.dsp F.DSP_DEF_LOST_COUNT).raise (shared 0x32)).report 0x0401 Unit.dispatcher 3 0 c.hash.toNat
    | some i =>
      (d.updDisp fun x => { x with defLog := put i e x.defLog, defNo := x.defNo + 1 }).raise (shared 0x30)
  let waiting := match d.ctx c.sid with
    | some x => (d.disp.defLog.filter fun y => d.defWaits c.sid x y.2).length
    | none => 0
  d.answerNeed cid status [] false none (some (defRecord e waiting)) (fun _ => 0)

/-- A refusal: everything reserved returns and nothing is applied (R132, R179); a range write of which pieces
have been applied stops under R196, while a session takes its response. -/
def Dev.refuse (d : Dev) (cid status : Nat) (payload : List Byte) : Dev :=
  match d.cmd cid with
  | some c =>
    if 0 < c.goodBytes then
      if (d.ctx c.sid).isSome then d.stopPart cid c status
      else (((d.leadAhead c).deferError c.tag status c.seq c.hash c.space c.goodBytes c.sid).releaseAll cid).answer cid status payload
    else (d.releaseAll cid).answer cid status payload
  | none => d

/-- A command ends with no response: everything it holds returns, and pieces of a range write already applied
enter the deferred-error log with the status given (R196). -/
def Dev.endQuiet (d : Dev) (cid status : Nat) : Dev :=
  match d.cmd cid with
  | none => d
  | some c =>
    let d := if c.goodBytes = 0 ∨ c.st = .complete then d
      else (d.leadAhead c).deferError c.tag status c.seq c.hash c.space c.goodBytes c.sid
    (d.releaseAll cid).dropCmd cid

/-- A response to a request that became no command (a refusal in the session engine); `cred` when the
request holds a credit, which returns as the response is sent. -/
def Dev.answerRaw (d : Dev) (sid seq tag op space status : Nat) (via : Via) (cred : Bool) : Dev :=
  d.send sid
    { op := op, status := status, space := space, tag := tag, more := false, payload := [],
      via := via, reqSeq := some seq, cid := none, swath := none, ownRec := none, cred := cred } (fun _ => 0)

/-! ### Bytes on the wire -/

/-- Source address bytes (R36): 4 over IPv4, 16 over IPv6. -/
def Dev.srcAddr (d : Dev) (p : PortId) (v6 : Bool) (dst : DstIp) : List Byte :=
  if !v6 then be 4 (d.ipv4 p)
  else
    match dst with
    | .second => be 16 (d.secondIp p)
    | _ => be 16 (d.linkLocal p)

/-- Pseudo-header and UDP header with its checksum field at 0xFFFF (R38). -/
def Dev.pseudo (d : Dev) (p : PortId) (v6 : Bool) (dst : DstIp) (ip : BitVec 128) (udp : BitVec 16)
    (len : Nat) : List Byte :=
  let ports := be 2 (d.fld Base.ses F.SES_CTRL_UDP_PORT) ++ be 2 udp.toNat ++ be 2 (len + 8) ++
    be 2 0xFFFF
  if v6 then d.srcAddr p true dst ++ be 16 ip.toNat ++ be 4 (len + 8) ++ zeros 3 ++ be 1 17 ++ ports
  else d.srcAddr p false dst ++ be 4 ip.toNat ++ be 1 0 ++ be 1 17 ++ be 2 (len + 8) ++ ports

/-- Pad and balance word after what precedes them (R38, R39). -/
def balanced (pseudo udp : List Byte) : List Byte :=
  let u := if udp.length % 2 = 1 then udp ++ [0] else udp
  u ++ be 2 (balanceWord (pseudo ++ u))

/-- The UDP payload of a fragment: header, payload or its sealed form under the keys given, pad and balance
word. -/
def Dev.skpBytes (d : Dev) (sid : Nat) (c : Ctx) (keys : Option KeySet) (flags seq ack tag op status space
    idx count total off : Nat) (payload : List Byte) (dst : DstIp) : List Byte :=
  let hdr := be 1 1 ++ be 1 flags ++ be 2 sid ++ be 4 seq ++ be 4 ack ++ be 2 tag ++ be 1 op ++
    be 1 status ++ be 2 space ++ be 2 idx ++ be 2 count ++ be 2 payload.length ++ be 4 total ++ be 4 off
  let body := match keys with
    | some k => sealFrame k op idx seq hdr payload
    | none => payload
  balanced (d.pseudo c.port c.v6 dst c.ip c.udp (udpLenOf payload.length keys.isSome)) (hdr ++ body)

/-! ### Ending a session -/

/-- Frames of a session leave the transmit queues. -/
def Dev.clearTx (d : Dev) (sid : Nat) : Dev :=
  let mine (i : TxItem) : Bool := match i with
    | .skp s _ _ _ => s == sid
    | .ackMsg s _ _ _ => s == sid
    | _ => false
  allPorts.foldl (fun d p => d.updPort p fun x => { x with txq := x.txq.filter fun e => !mine e.item }) d

/-- Cells of the messages a session still holds return. -/
def Dev.freeMsgs (d : Dev) (ms : List InMsg) : Dev :=
  ms.foldl (fun d m => (d.giveHeld m.held).leaveKey m.keyNo) d

/-- Commands that outlive their session keep its number out of the way of a later session that takes the
same identifier: they answer nobody, hold no credit of it and no TAG (R106). -/
def Dev.orphanCmds (d : Dev) (sid : Nat) : Dev :=
  d.updDisp fun x => { x with
    cmds := x.cmds.map fun e => (e.1, if e.2.sid == sid then { e.2 with sid := sid + 65536 } else e.2) }

/-- Values a session has written: an error of theirs is nobody's own once the session has closed (R198). -/
def Dev.orphanKeys (d : Dev) (sid : Nat) : Dev :=
  { d with sws := d.sws.map fun s =>
      { s with keys := s.keys.map fun k => if k.sid == sid then { k with sid := sid + 65536 } else k } }

/-- A context becomes FREE: retention and held fragments go, open streams and requests not fully
received are abandoned (applied pieces of theirs are entered with D_STATUS QUEUE_RESET: DESIGN CHOICE, log entry 93), the
others run on for nobody, its waiting deferred errors pass to the admin sessions (R106, R198, R405). -/
def Dev.endSession (d : Dev) (sid : Nat) : Dev :=
  match d.ctx sid with
  | none => d
  | some c =>
    let d := d.freeMsgs c.msgs
    let d := c.streams.foldl (fun d s => d.dropStream s) d
    let part := d.disp.cmds.filter fun e => e.2.sid == sid && (!e.2.gotAll || e.2.st == .complete)
    let d := part.foldl (fun d e => d.endQuiet e.1 St.queueReset) d
    let d := (((d.clearTx sid).freeCtx sid).orphanCmds sid).orphanKeys sid
    let d := d.updDisp fun x => { x with
      defLog := x.defLog.map fun e =>
        (e.1, if e.2.sid == sid && !e.2.delivered then { e.2 with orphan := true } else e.2) }
    d.ntfGone sid

end Sys2Proof.Machine
end

