-- ==== Sys2Proof/Machine/Session.lean ====
section
/-!
DEFINITION. The session engine (chapter "Sessions and the key protocol"): committing fragments,
admission in sequence order, breaches and freezing, acknowledgement, opening, rekeying, closing and
QUEUE_RESET.
-/
namespace Sys2Proof.Machine

/-- The end of an epoch on a sealed session (R114): drop (false), refuse (true), or neither. Refusals begin
once 0xFEFF_FFFF has been sent, and stop once fewer than 2^23 numbers are unassigned. -/
def epochEnd (c : Ctx) (op seq : Nat) : Option Bool :=
  if !c.isSealed || op = Op.rekey then none
  else if 2 ^ 32 - c.txNext < 2 ^ 23 then some false
  else if 0xFEFFFFFF ≤ c.txSent then some true
  else if seq = 0xFFFFFFFF then some true
  else none

/-! ### The reset point of QUEUE_RESET (R120, R121, R123) -/

/-- A command that has been passed to swaths; what has not been ends at the reset point itself. -/
def Cmd.atSwath (c : Cmd) : Bool :=
  isData c.op && c.op != Op.list && c.st != .complete && c.st != .inSession && c.st != .waitRes

/-- Swaths that hold commands of a session: those its commands were passed to. -/
def Dev.swathsOf (d : Dev) (sid : Nat) : List (Fin 16) :=
  allSwaths.filter fun n => d.disp.cmds.any fun e => e.2.sid == sid && e.2.owners.contains n && e.2.atSwath

/-- A command is ABORTED: everything returns, no response is ever sent (R121, R122); applied pieces of a range
write are entered with D_STATUS QUEUE_RESET (DESIGN CHOICE, log entry 93). The target of a QUEUE_RESET that is
itself aborted admits again. -/
def Dev.abortCmd (d : Dev) (cid : Nat) : Dev :=
  let ctxs : Tbl Ctx := d.ses.ctx.map fun e =>
    (e.1, if e.2.resetBy == some cid then { e.2 with resetBy := none } else e.2)
  ({ d with ses := { d.ses with ctx := ctxs } }).endQuiet cid St.queueReset

/-- Highest number of a session whose fragment 0 has committed (R123). -/
def Ctx.highFrag0 (c : Ctx) : Nat :=
  let base := if c.rxNext = 1 then c.rxAck else seqMax c.isSealed c.rxAck (c.rxNext - 1)
  let base := c.rxDone.foldl (seqMax c.isSealed) base
  ((c.msgs.filter (·.frag0)).map (·.seq)).foldl (seqMax c.isSealed) (seqMax c.isSealed base c.high0)

/-- The reset point: messages in RECEIVING or HELD go, streams go, every request that waits at no swath is
aborted, management requests in whatever step included, and no later fragment of an aborted request is
taken (R121). Nothing of the target is admitted until the answer. An admitted SESSION_CLOSE of the target
is aborted like any other request, and the session takes requests again (DESIGN CHOICE, log entry 85: the
spec does not say what the reset does to it). A REG_WRITE that waits with entries applied runs on, as a write
past its order point does (DESIGN CHOICE, log entry 113: what is applied cannot be taken back). -/
def Dev.resetPoint (d : Dev) (cid target : Nat) (t : Ctx) (resume : Nat) : Dev :=
  let d := (t.msgs.filter fun m => m.cid.isNone).foldl (fun d m => d.dropMsg target m.seq) d
  let d := t.streams.foldl (fun d s => d.dropStream s) d
  let mine := d.disp.cmds.filter fun e => e.2.sid == target && e.1 != cid && e.2.st != .complete
  let early := mine.filter fun e => !e.2.atSwath && !(e.2.op == Op.regWrite && decide (0 < e.2.regAt))
  let d := early.foldl (fun d e => d.abortCmd e.1) d
  let d := (mine.filter fun e => !e.2.gotAll).foldl (fun d e => d.settle target e.2.seq) d
  let d := d.updCtx target fun x => { x with
    streams := [], resetBy := some cid, rekeying := false, closeSeen := false,
    rxDone := x.rxDone.filter fun n => seqBelow x.isSealed n resume }
  let d := d.updCmd cid fun x => { x with target := target, resume := resume, aborted := early.length }
  d.ntfGone target

/-- A QUEUE_RESET is admitted: that is the reset point of a session that can be reset (R120). TARGET is read
modulo 16,384, the width of a session identifier (DESIGN CHOICE, log entry 84). -/
def Dev.noteReset (d : Dev) (cid : Nat) : Dev :=
  match d.cmd cid with
  | none => d
  | some q =>
    let target := fieldBe q.payload 0 2 % 16384
    match d.ctx target, d.ctx q.sid with
    | some t, some c =>
      if t.st == .closing || t.st == .opening || t.resetBy.isSome then d
      else if target = q.sid then d.resetPoint cid target t (nextSeq c.isSealed q.seq)
      else d.resetPoint cid target t (nextSeq t.isSealed t.highFrag0)
    | _, _ => d

/-- A request whose fragment 0 has committed and that is no command yet holds its credit (R103). -/
def InMsg.holds (m : InMsg) : Bool := m.credit && m.cid.isNone

/-- A refusal that has not been sent holds its request's credit. -/
def OutFrag.holds (f : OutFrag) : Bool := f.cred && !f.good

/-! ### Freezing (R118, R119) -/

/-- A SESSION_FROZEN answer is due: none has gone within FROZEN_MS. -/
def Dev.frozenDue (d : Dev) (c : Ctx) : Bool :=
  match c.frozenAt with
  | none => true
  | some t => decide (d.fld Base.ses F.SES_WIN_FROZEN_MS * 1024 ≤ (d.now - t) * 1000)

/-- An answer of SESSION_FROZEN, at most one per FROZEN_MS; otherwise the request is dropped. -/
def Dev.answerFrozen (d : Dev) (sid seq tag op space : Nat) (via : Via) (cred : Bool) : Dev :=
  match d.ctx sid with
  | none => d
  | some c =>
    if d.frozenDue c then
      (d.updCtx sid fun x => { x with frozenAt := some d.now }).answerRaw sid seq tag op space
        St.sessionFrozen via cred
    else d.bump Base.ses F.SES_FROZEN_DROP_COUNT

/-- The header of a freeze is latched, byte 4k in bits [31:24] of HDRk (Table 3-14). -/
def Dev.latchHdr (d : Dev) (h : SkpHdr) : Dev :=
  (List.range 8).foldl (fun d k =>
    d.setFld Base.ses (F.SES_FRZ_HDR_BITS.at k) (fieldBe (hdrBytes h) (4 * k) 4)) d

/-- An open session freezes; `causes` has bit n set for breach n. -/
def Dev.freeze (d : Dev) (sid causes : Nat) (h : SkpHdr) : Dev :=
  match d.ctx sid with
  | none => d
  | some c =>
    if c.st != .opened then d
    else
      let d := d.updCtx sid fun x => { x with st := .frozen, frozenAt := none }
      let d :=
        if d.flag Base.ses F.SES_FRZ_SID_VALID then d
        else
          let d := (d.latchHdr h).setFld Base.ses F.SES_FRZ_SID_SID sid
          let d := d.setFld Base.ses F.SES_FRZ_SID_CAUSE causes
          d.setCond Base.ses F.SES_FRZ_SID_VALID 1 0x20
      (d.report 0x0302 Unit.session 2 causes sid).ntfGone sid

/-- The status for breaches whose bits are 0: PERMISSION for bits 2 and 3 alone, else MALFORMED. -/
def breachStatus (causes : Nat) : Nat := if causes &&& 0x73 = 0 then St.permission else St.malformed

/-- Credits a session's requests hold: commands, requests that wait for their turn, and refusals not yet
sent. -/
def Dev.inflight (d : Dev) (sid : Nat) : Nat :=
  (d.disp.cmds.filter fun e => e.2.sid == sid && e.2.credit).length +
    (match d.ctx sid with
     | some c => (c.msgs.filter (·.holds)).length + (c.out.filter (·.holds)).length
     | none => 0)

/-- A request whose fragment 0 commits takes a credit, unless its opcode takes none, none is free, or the end of
the epoch drops it (R103, R114). -/
def Dev.creditFree (d : Dev) (sid : Nat) (c : Ctx) (h : SkpHdr) : Bool :=
  takesCredit h.opcode.toNat && epochEnd c h.opcode.toNat h.seq.toNat != some false &&
    decide (d.inflight sid < c.credit)

/-- A range write with pieces applied ends at a breach of its own: its response carries its record (R196), and in
a frozen session that has answered lately its error waits in the log. -/
def Dev.breachPart (d : Dev) (sid cid status : Nat) (q : Cmd) : Dev :=
  match d.ctx sid with
  | none => d
  | some c =>
    if c.st ≠ .frozen then d.stopPart cid q status
    else if d.frozenDue c then
      (d.updCtx sid fun x => { x with frozenAt := some d.now }).stopPart cid q St.sessionFrozen
    else ((d.endQuiet cid St.sessionFrozen).settle sid q.seq).bump Base.ses F.SES_FROZEN_DROP_COUNT

/-- A request that commits breaches (R118): it freezes the session, or it is answered with MALFORMED or
PERMISSION. It is never admitted; a command it had become is abandoned. Its number counts as received in
full only when its fragment 0 has committed (R94, R95); at the end of an epoch nothing is answered (R114). -/
def Dev.breach (d : Dev) (sid causes : Nat) (h : SkpHdr) (via : Via) : Dev :=
  match d.ctx sid with
  | none => d
  | some c =>
    let seq := h.seq.toNat
    let op := h.opcode.toNat
    let on := causes &&& d.fld Base.ses F.SES_FREEZE_EN_EN
    let d := if on = 0 then d else d.freeze sid on h
    if op = Op.ack || c.received seq then d
    else
      let m := c.msg seq
      let old := m.bind (·.cid)
      let part := old.bind fun i => (d.cmd i).bind fun q =>
        if 0 < q.goodBytes ∧ q.st ≠ .complete then some (i, q) else none
      match part with
      | some (i, q) => d.breachPart sid i (breachStatus causes) q
      | none =>
      let had := (m.map (·.frag0)).getD false
      let frag0 := h.fragIndex == 0 || had
      let cred := ((m.map (·.credit)).getD false) || ((old.bind d.cmd).map (·.credit)).getD false ||
        (h.fragIndex == 0 && !had && d.creditFree sid c h)
      let d : Dev := match old with
        | some cid => d.endQuiet cid (breachStatus causes)
        | none => d
      let d : Dev := if frag0 then d.settle sid seq else d.dropMsg sid seq
      if epochEnd c op seq = some false then d.bump Base.ses F.SES_EPOCH_DROP_COUNT
      else if (d.ctx sid).map (·.st) = some CtxSt.frozen then
        d.answerFrozen sid seq h.tag.toNat op h.keySpace.toNat via cred
      else d.answerRaw sid seq h.tag.toNat op h.keySpace.toNat (breachStatus causes) via cred

/-! ### Admission in sequence order (R94, R104, R132) -/

/-- TAG equals that of another request that still holds a credit. -/
def Dev.tagTaken (d : Dev) (sid seq tag : Nat) : Bool :=
  (d.disp.cmds.any fun e => e.2.sid == sid && e.2.credit && e.2.tag == tag) ||
    (match d.ctx sid with
     | some c => (c.msgs.any fun m => m.holds && m.seq != seq && m.hdr.tag.toNat == tag) ||
         c.out.any fun f => f.holds && f.tag == tag
     | none => false)

/-- The payload bytes a message has received, at their offsets. -/
def InMsg.payload (m : InMsg) : List Byte :=
  m.frags.foldl (fun l f => overlay l f.2.1 f.2.2) []

/-- The fixed fields and key as fragment 0 holds them: one that does not start at offset 0 holds none (R87). -/
def InMsg.head (m : InMsg) : List Byte :=
  match m.frags.find? fun f => f.1 == 0 with
  | some f => if f.2.1 = 0 then f.2.2 else []
  | none => []

/-- Breaches that admission finds: bits 1 (reserved bits of the payload), 2, 3 and 5 of Table 3-9. A fragment 0
that lacks fixed fields breaches none by what it lacks (R87). -/
def Dev.admitBreaches (d : Dev) (sid : Nat) (c : Ctx) (h : SkpHdr) (p : List Byte) : Nat :=
  let op := h.opcode.toNat
  let action := if op = Op.hold then fieldBe p 28 4 else 0
  let perm := match permBit op action with
    | some k => d.hasPerm c k
    | none => op != Op.queueReset || c.admin || p.length < frag0Need op p || fieldBe p 0 2 % 16384 == sid
  2 * b2n (opflagsReserved op p || payloadReserved op p) + 4 * b2n (!perm) +
    8 * b2n (isData op && !d.hasSpace c h.keySpace.toNat) + 32 * b2n (d.tagTaken sid h.seq.toNat h.tag.toNat)

/-- A new command in the session engine's hands. -/
def newCmd (sid : Nat) (c : Ctx) (m : InMsg) : Cmd :=
  let h := m.hdr
  { sid := sid, seq := m.seq, tag := h.tag.toNat, op := h.opcode.toNat, space := h.keySpace.toNat,
    payload := m.payload, gotAll := m.done, msgLen := h.msgLen.toNat, credit := m.credit,
    port := c.port, via := m.via, oneFrame := m.oneFrame,
    keyNo := m.keyNo, key := if isData h.opcode.toNat then keyOf m.head else [], hash := 0, rule := none,
    st := .inSession, failed := false, owners := [],
    arrived := [], eligible := [], passed := [], ready := [], ordered := false, oneCopy := false,
    hasTag := false, slotsOn := [], ver := 0, chargeL := 0, chargeP := 0, keyHeld := [],
    chargedOn := [], invNo := 0, held := [], units := [],
    snap := none, opened := 0, pieces := [], base := [], taken := [], flows := [], result := [], respSeqs := [], started := false, answered := false,
    abort := false, t0 := m.t0, admStamp := 0, admClock := 0, seals := [], age := 0,
    markers := [], aborted := 0, highDone := 0, target := 0,
    resume := 0, regAt := 0, regVals := [] }

/-- A refusal in the session engine: the number is used and no further fragment is taken. -/
def Dev.refuseReq (d : Dev) (sid : Nat) (m : InMsg) (status : Nat) : Dev :=
  (d.settle sid m.seq).answerRaw sid m.seq m.hdr.tag.toNat m.hdr.opcode.toNat m.hdr.keySpace.toNat
    status m.via m.credit

/-- The keyed hash of a key in a key space (R243). -/
def Dev.keyedHash (d : Dev) (space : Nat) (key : List Byte) : DWord :=
  sipHash d.disp.secret (BitVec.ofNat 8 (space % 256) :: key)

/-- The request becomes a command. A run of refusals under R104 ends when a request that takes a credit is
admitted, and not by other refusals or by requests without credit (DESIGN CHOICE, log entry 83: the spec
does not say what ends a run 'in a row'). Data commands join the dispatcher's order, the others the session
engine's (R94, R175). -/
def Dev.admitCmd (d : Dev) (sid : Nat) (c : Ctx) (m : InMsg) : Dev :=
  let op := m.hdr.opcode.toNat
  let cid := d.disp.nextCid
  let keep := isWrite op
  let cmd := newCmd sid c m
  let rule := (m.keyNo.bind fun n => look n d.pol.keys).bind (·.done)
  let cmd := { cmd with held := if keep then m.held else [], rule := rule }
  let hash : DWord :=
    if isData op then d.keyedHash m.hdr.keySpace.toNat cmd.key else 0
  let d := d.updDisp fun x => { x with
    cmds := put cid { cmd with hash := hash } x.cmds,
    nextCid := cid + 1,
    wait := if isData op then x.wait ++ [cid] else x.wait,
    inbox := if isData op then x.inbox else x.inbox ++ [cid] }
  let d := if keep then d else d.giveHeld m.held
  let d := if rule.isSome then d.dropKey m.keyNo else d
  let d := d.updCtx sid fun x => { x with overRun := if takesCredit op then 0 else x.overRun }
  let d := if m.done then d.updCtx sid fun x => (x.dropMsg m.seq).markDone m.seq
    else d.updCtx sid fun x => x.setMsg { m with cid := some cid, held := [] }
  d.drainCells cid

/-- Fragment 0 of a request commits: it takes a credit, whatever its answer will be (R103), or it is answered
with BUSY because every credit is taken (R104), unless SESSION_FROZEN or KEY_EPOCH_EXHAUSTED goes before (R132).
With SES_FREEZE_EN bit 4 at 0, more than 16 refusals in a row are still answered with BUSY, as R104 and R132
say, and not as the sentence under Table 3-9 says of every breach (DESIGN CHOICE, log entry 82). -/
def Dev.creditFor (d : Dev) (sid : Nat) (c : Ctx) (m : InMsg) : Dev :=
  let h := m.hdr
  let op := h.opcode.toNat
  if d.creditFree sid c h then d.updCtx sid fun x => { x with
    msgs := x.msgs.map fun y => if y.seq == m.seq then { y with credit := true } else y }
  else if !takesCredit op || c.st != .opened || (epochEnd c op m.seq).isSome then d
  else
    let d := d.bump Base.ses F.SES_CREDIT_OVER_COUNT
    let d := d.updCtx sid fun x => { x with overRun := x.overRun + 1 }
    if 16 < c.overRun + 1 ∧ bit (d.fld Base.ses F.SES_FREEZE_EN_EN) 4 then d.breach sid 16 h m.via
    else d.refuseReq sid m St.busy

/-- A request whose fragment 0 has committed, at its turn: the tests of R132 the session engine makes,
in order. Numbers from the last 2^23 are dropped before anything else (R114), and of a request in number
2^32 - 1 only the header is read. -/
def Dev.admitReq (d : Dev) (sid : Nat) (c : Ctx) (m : InMsg) : Dev :=
  let h := m.hdr
  let op := h.opcode.toNat
  let p := m.head
  let b := if c.isSealed ∧ m.seq = 0xFFFFFFFF then 0 else d.admitBreaches sid c h p
  if epochEnd c op m.seq = some false then (d.settle sid m.seq).bump Base.ses F.SES_EPOCH_DROP_COUNT
  else if c.st == .frozen then
    (d.settle sid m.seq).answerFrozen sid m.seq h.tag.toNat op h.keySpace.toNat m.via m.credit
  else if b &&& d.fld Base.ses F.SES_FREEZE_EN_EN ≠ 0 then d.breach sid b h m.via
  else if (epochEnd c op m.seq).isSome then d.refuseReq sid m St.keyEpochExhausted
  else if knownOps.contains op && (decide (msgLimit op < h.msgLen.toNat) || tooLong op p) then
    d.refuseReq sid m St.tooLarge
  else if m.flaw != 0 || p.length < frag0Need op p || reqMalformed op h.msgLen.toNat p || b &&& 0x22 != 0 then
    d.refuseReq sid m St.malformed
  else if b ≠ 0 then d.refuseReq sid m St.permission
  else d.admitCmd sid c m

/-- The session admits requests now (R105, R115, R121). -/
def Ctx.admits (c : Ctx) : Bool :=
  (c.st == .opened || c.st == .frozen) && !c.rekeying && !c.closeSeen && c.resetBy.isNone

/-- A request that stops later admission: REKEY until it is answered, SESSION_CLOSE for good, and
QUEUE_RESET that of its target until its answer (R120). -/
def Dev.noteStops (d : Dev) (sid : Nat) (h : SkpHdr) (before : Nat) : Dev :=
  if d.disp.nextCid = before then d
  else
    let op := h.opcode.toNat
    if op = Op.rekey then d.updCtx sid fun x => { x with rekeying := true }
    else if op = Op.sessionClose then d.updCtx sid fun x => { x with closeSeen := true }
    else if op = Op.queueReset then d.noteReset before
    else d

/-- REQUEST_DISPATCH (R94): requests are admitted in SEQ order as far as fragment 0 has committed. -/
def Dev.admitLoop : Nat → Nat → Dev → Dev
  | 0, _, d => d
  | f + 1, sid, d =>
    match d.ctx sid with
    | none => d
    | some c =>
      if !c.admits then d
      else
        let n := c.rxNext
        match c.msg n with
        | some m =>
          if m.frag0 then
            let d1 := d.updCtx sid fun x => { x with rxNext := nextSeq c.isSealed n }
            Dev.admitLoop f sid ((d1.admitReq sid c m).noteStops sid m.hdr d.disp.nextCid)
          else d
        | none =>
          if c.received n then
            Dev.admitLoop f sid (d.updCtx sid fun x => { x with rxNext := nextSeq c.isSealed n })
          else d

/-- Steps the loop may need. -/
def Ctx.fuel (c : Ctx) : Nat := c.msgs.length + c.rxDone.length + 2

def Dev.runAdmission (d : Dev) (sid : Nat) : Dev :=
  match d.ctx sid with
  | none => d
  | some c => Dev.admitLoop c.fuel sid d

/-- Held requests after an admitted SESSION_CLOSE are dropped (R105). -/
def Dev.dropAfterClose (d : Dev) (sid : Nat) : Dev :=
  match d.ctx sid with
  | none => d
  | some c =>
    if c.closeSeen then
      (c.msgs.filter fun m => m.cid.isNone).foldl
        (fun d m => (d.dropMsg sid m.seq).bump Base.ses F.SES_TUPLE_DROP_COUNT) d
    else d

/-- Requests are admitted as far as they may be, and those behind a SESSION_CLOSE go. -/
def Dev.admitMore (d : Dev) (sid : Nat) : Dev := (d.runAdmission sid).dropAfterClose sid

/-- A whole QUEUE_RESET of an admin session that names another session is admitted at its commit, in front of
earlier requests that have not come (R120). -/
def Ctx.resetsOther (c : Ctx) (sid : Nat) (m : InMsg) : Bool :=
  c.st == .opened && c.admits && c.admin && m.cid.isNone && m.hdr.opcode.toNat == Op.queueReset && m.done &&
    fieldBe m.head 0 2 % 16384 != sid

def Dev.admitReset (d : Dev) (sid seq : Nat) : Dev :=
  match d.ctx sid with
  | none => d
  | some c =>
    match c.msg seq with
    | none => d
    | some m =>
      if c.resetsOther sid m then (d.admitReq sid c m).noteStops sid m.hdr d.disp.nextCid else d

/-! ### Acknowledgement and retention (R95, R98) -/

/-- The host acknowledges every drive message numbered a or below. -/
def Ctx.ackUpTo (c : Ctx) (a : Nat) : Ctx :=
  if a = 0 then c
  else { c with
    out := c.out.filter fun f => !(decide (0 < f.sent) && f.epoch == c.epoch && seqUpTo c.isSealed f.seq a),
    txAcked := seqMax c.isSealed c.txAcked a }

/-- Retained fragments of a response are sent again (R100 to R102); each counts in SES_RESEND when it
leaves. -/
def Dev.requeue (d : Dev) (sid : Nat) (fs : List OutFrag) : Dev :=
  match d.ctx sid with
  | none => d
  | some c =>
    fs.foldl (fun d f =>
      if (d.port c.port).txq.any fun e => e.item == .skp sid f.epoch f.seq f.idx then d
      else d.enqueue c.port
        { via := f.via, size := frameSize c.v6 f.via.tagged (udpLenOf f.payload.length c.isSealed),
          item := .skp sid f.epoch f.seq f.idx }) d

/-- Set REKEY_DUE once a counter reaches 2^31 (R113). -/
def Dev.noteRekeyDue (d : Dev) (sid n : Nat) : Dev :=
  match d.ctx sid with
  | none => d
  | some c =>
    if c.isSealed && !c.rekeyDue && decide (2 ^ 31 ≤ n) then
      (d.updCtx sid fun x => { x with rekeyDue := true }).raise (shared 0x22)
    else d

/-! ### FRAGMENT_COMMIT (R11) -/

/-- The phase of a SESSION_OPEN frame in the clear: its first byte in fragment 0; a later fragment can only
belong to phase 3, since phase 1 fits one frame. -/
def openPhase (s : SkpFrame) : Option Nat :=
  if s.hdr.opcode.toNat = Op.sessionOpen ∧ !s.hdr.flags.getLsbD 1 then
    some (if s.hdr.fragIndex = 0 then fieldBe s.payload 0 1 else 3)
  else none

/-- Phases 1 and 3, which are clear on every session. -/
def isOpening (s : SkpFrame) : Bool := openPhase s == some 1 || openPhase s == some 3

/-- R84: a header the drive drops without reply. Clear frames of SESSION_OPEN phases 1 and 3 are exempt from
the mode test, because R110 answers their repeats on every session. -/
def hdrBad (s : SkpFrame) (c : Option Ctx) : Bool :=
  let h := s.hdr
  h.version != 1 || h.flags.getLsbD 0 ||
    s.udpLen != udpLenOf h.fragLen.toNat (h.flags.getLsbD 1) ||
    (match c with
     | some c => c.st != .opening && !isOpening s && h.flags.getLsbD 1 != c.isSealed
     | none => false)

/-- The frame comes from another port, address or UDP port than its context is bound to (R105). -/
def stranger (c : Ctx) (p : PortId) (e : RxEnt) : Bool := p != c.port || e.srcIp != c.ip || e.srcUdp != c.udp

/-- R105 for a frame of a session that is no phase 1 or 3. -/
def tupleBad (c : Ctx) (p : PortId) (e : RxEnt) : Bool :=
  let h := e.skp.hdr
  let op := h.opcode.toNat
  let seen := c.received h.seq.toNat
  stranger c p e || c.st == .opening ||
    (c.st == .closing && op != Op.ack && !(op == Op.sessionClose && seen)) ||
    (c.closeSeen && op != Op.ack && !seen && (c.msg h.seq.toNat).isNone)

/-- The frame's tag verifies under the keys of the current epoch (R112, R116). -/
def tagCurrent (c : Ctx) (s : SkpFrame) : Bool :=
  !c.isSealed || (s.tagOk && !s.oldKey && s.hdr.flags.getLsbD 2 == decide (c.epoch % 2 = 1))

/-- A repeat of the REKEY, of the same number, under the previous epoch's key, kept while its answer is retained
(R116). -/
def tagPrevious (c : Ctx) (s : SkpFrame) : Bool :=
  c.isSealed && c.prev.any (fun p => p.seq == s.hdr.seq.toNat) && s.tagOk && s.oldKey && s.hdr.opcode.toNat == Op.rekey &&
    s.hdr.flags.getLsbD 2 == decide ((c.epoch - 1) % 2 = 1)

/-- Breaches in a header: bits 1 and 6 of Table 3-9. -/
def hdrBreaches (c : Ctx) (h : SkpHdr) : Nat :=
  let op := h.opcode.toNat
  2 * b2n (reqFlagsBad h || h.status != 0 || !knownOps.contains op || decide (255 < h.keySpace.toNat) ||
      decide (16384 ≤ h.session.toNat)) +
    64 * b2n (h.ack != 0 && !seqUpTo c.isSealed h.ack.toNat c.txSent)

/-- R86: the fragment agrees with those of its message and their ranges tile the payload. -/
def fragFits (m : InMsg) (h : SkpHdr) : Bool :=
  let a := m.hdr
  let off := h.fragOffset.toNat
  let n := h.fragLen.toNat
  let total := h.msgLen.toNat
  a.version == h.version && a.flags == h.flags && a.session == h.session && a.tag == h.tag &&
    a.opcode == h.opcode && a.status == h.status && a.keySpace == h.keySpace &&
    a.fragCount == h.fragCount && a.msgLen == h.msgLen &&
    decide (h.fragIndex.toNat < h.fragCount.toNat) && decide (off + n ≤ total) &&
    (decide (1 ≤ n) || (total == 0 && h.fragCount == 1)) &&
    (m.frags.all fun f => decide (off + n ≤ f.2.1 ∨ f.2.1 + f.2.2.length ≤ off)) &&
    (decide (m.frags.length + 1 < h.fragCount.toNat) ||
      (m.frags.map fun f => f.2.2.length).sum + n == total)

/-- A message before its first fragment. -/
def InMsg.fresh (e : RxEnt) : InMsg :=
  { seq := e.skp.hdr.seq.toNat, hdr := e.skp.hdr, frags := [], frag0 := false, done := false,
    oneFrame := e.skp.hdr.fragCount == 1, t0 := 0, cid := none, held := [], via := e.via,
    credit := false, flaw := 0, keyNo := none }

/-- A fragment joins its message; one of an admitted command passes on, and its cells return at once
unless it carries a write's data for which no buffer unit is taken (R41). -/
def Dev.takeFrag (d : Dev) (sid : Nat) (m : InMsg) (e : RxEnt) : Dev :=
  let h := e.skp.hdr
  let hold : CellHold :=
    { off := h.fragOffset.toNat, len := e.skp.payload.length, c := e.cells, c7 := e.cells7 }
  let frags := m.frags ++ [(h.fragIndex.toNat, h.fragOffset.toNat, e.skp.payload)]
  let m := { m with
    frags := frags, frag0 := m.frag0 || h.fragIndex == 0,
    done := decide (frags.length = h.fragCount.toNat),
    t0 := if h.fragIndex = 0 then d.ptpNow else m.t0,
    hdr := if h.fragIndex = 0 then h else m.hdr, via := if h.fragIndex = 0 then e.via else m.via,
    keyNo := if h.fragIndex = 0 then e.keyNo else m.keyNo }
  match m.cid with
  | none => d.updCtx sid fun x => x.setMsg { m with held := m.held ++ [hold] }
  | some cid =>
    let d := if isWrite h.opcode.toNat then
        d.updCmd cid fun x => { x with held := x.held ++ [hold] }
      else d.giveHeld [hold]
    let was := d.cmd cid
    let d1 := d.updCmd cid fun x => { x with
      payload := overlay x.payload h.fragOffset.toNat e.skp.payload, gotAll := m.done }
    let d1 := if m.done then d1.updCtx sid fun x => (x.dropMsg m.seq).markDone m.seq
      else d1.updCtx sid fun x => x.setMsg m
    let d1 := match was, d1.cmd cid with
      | some c0, some c => c.owners.foldl (fun (x : Dev) (n : Fin 16) =>
          let k := lookD n.val 0 c.taken
          x.bumpBy (Base.sw n) F.SW_CIP_SEAL_COUNT (d1.sealedFor c k - d.sealedFor c0 k)) d1
      | _, _ => d1
    d1.drainCells cid

/-- A CLOSING context becomes FREE once the host has acknowledged the answer (R107). -/
def Dev.freeIfAcked (d : Dev) (sid : Nat) : Dev :=
  match d.ctx sid with
  | none => d
  | some c =>
    if c.st == .closing && !(c.out.any fun f => f.op == Op.sessionClose) then d.endSession sid else d

/-- A message has passed R84 and R11 on a session: resending starts again where it had stopped, at RTO_US
(R100). -/
def Dev.restart (d : Dev) (sid : Nat) : Dev :=
  d.updCtx sid fun x => { x with
    paused := false, out := x.out.map fun f => { f with tries := if x.paused then 0 else f.tries } }

/-- What the session engine does for every frame that has passed R84, R105 and its tag: resending
restarts where it had stopped (R100), the previous epoch's key and the REKEY answer go (R116), the most recent request's
path is kept (R36, R51), and the header's ACK releases retention (R98). The most recent request is that of the
last frame that is no ACK message, a later fragment or a repeat of an older request included (DESIGN CHOICE, log
entry 110: the spec does not say), and an ACK message does not start ACK_DELAY (DESIGN CHOICE, log entry 111: R97
says 'a message', and two ends that acknowledged each other's ACK messages would never stop). -/
def Dev.touch (d : Dev) (sid : Nat) (c : Ctx) (e : RxEnt) : Dev :=
  let h := e.skp.hdr
  let isAck := h.opcode.toNat == Op.ack
  let d := (d.restart sid).updCtx sid fun x => { x with
    out := if c.prev.isSome then x.out.filter (fun f => f.epoch == x.epoch) else x.out,
    prev := none,
    high0 := if isAck || h.fragIndex != 0 then x.high0 else seqMax x.isSealed x.high0 h.seq.toNat,
    via := if isAck then { x.via with dst := e.via.dst } else e.via,
    ackRx := if isAck then max x.ackRx h.seq.toNat else x.ackRx,
    ackDue := x.ackDue || !isAck }
  let d := d.noteRekeyDue sid h.seq.toNat
  if h.ack != 0 && seqUpTo c.isSealed h.ack.toNat c.txSent then
    (d.updCtx sid fun x => x.ackUpTo h.ack.toNat).freeIfAcked sid
  else d

/-- A repeat of a request already received in full (R102): the fragments of its responses that are still
retained go again, each message at most once per RTO_US; with none retained the repeat is counted.
`sinceUs` is the time since the responses were last sent again. -/
def Dev.repeatOf (d : Dev) (sid : Nat) (fs : List OutFrag) (sinceUs : Nat) : Dev :=
  if fs.isEmpty then d.bump Base.ses F.SES_DUP_DROP_COUNT
  else d.requeue sid (fs.filter fun f =>
    f.sent == 1 || decide (d.fld Base.ses F.SES_TIMER_RTO_RTO_US ≤ sinceUs))

/-- An ACK message is one fragment whose length its MAP_LEN gives (R86, Table 3-4, R128). -/
def ackShape (e : RxEnt) : Bool :=
  let h := e.skp.hdr
  decide (h.msgLen.toNat ≤ msgLimit Op.ack) && h.msgLen.toNat == 8 + fieldBe e.skp.payload 6 2 &&
    decide (8 ≤ e.skp.payload.length)

/-- A fragment that joins no message because it breaks R86 while bit 0 of SES_FREEZE_EN is 0: a command it
belongs to is abandoned, a request still to be admitted takes its credit with fragment 0 and is MALFORMED at its
turn (R132). -/
def Dev.misfit (d : Dev) (sid : Nat) (c : Ctx) (m : InMsg) (e : RxEnt) : Dev :=
  let h := e.skp.hdr
  if bit (d.fld Base.ses F.SES_FREEZE_EN_EN) 0 || m.cid.isSome then d.breach sid 1 h e.via
  else
    let zero := h.fragIndex == 0
    let m' := { m with
      flaw := m.flaw ||| 1, frag0 := m.frag0 || zero, hdr := if zero then h else m.hdr,
      frags := if zero then m.frags ++ [(0, h.fragOffset.toNat, e.skp.payload)] else m.frags,
      via := if zero then e.via else m.via }
    let d := d.updCtx sid fun x => x.setMsg m'
    if zero then d.creditFor sid c m' else d

/-- Breaches of a header in a later fragment of a command, or of the kind that freezes, act at once; others
wait for the request's turn as its flaw, so that R132's order holds. -/
def Dev.joinMsg (d : Dev) (sid : Nat) (c : Ctx) (e : RxEnt) (b : Nat) : Dev :=
  let h := e.skp.hdr
  let m := (c.msg h.seq.toNat).getD (InMsg.fresh e)
  let give (d : Dev) : Dev := (d.giveCells e.cells e.cells7).leaveKey e.keyNo
  if m.frags.any fun f => f.1 == h.fragIndex.toNat then
    (give (d.bump Base.ses F.SES_DUP_DROP_COUNT)).dropKey e.keyNo
  else if !fragFits m h then give (d.misfit sid c m e)
  else if b ≠ 0 ∧ m.cid.isSome then give (d.breach sid b h e.via)
  else
    let d := d.takeFrag sid { m with flaw := m.flaw ||| b } e
    let d := if h.fragIndex = 0 then
        match (d.ctx sid).bind (·.msg h.seq.toNat) with
        | some m => d.creditFor sid c m
        | none => d
      else d
    d.admitReset sid h.seq.toNat

/-- A frame that has committed for a session in OPEN, FROZEN or CLOSING. An ACK message that is not shaped
as Table 3-4 gives has no effect and, like every ACK, no response (DESIGN CHOICE, log entry 86). -/
def Dev.commitMsg (d : Dev) (sid : Nat) (c : Ctx) (e : RxEnt) (sinceUs : Nat) : Dev :=
  let h := e.skp.hdr
  let op := h.opcode.toNat
  let seq := h.seq.toNat
  let give (d : Dev) : Dev := d.giveCells e.cells e.cells7
  let d := d.touch sid c e
  let b := hdrBreaches c h
  let go (d : Dev) : Dev := d.admitMore sid
  if b &&& d.fld Base.ses F.SES_FREEZE_EN_EN ≠ 0 then go ((give (d.breach sid b h e.via)).leaveKey e.keyNo)
  else if op = Op.ack then
    if !fragFits (InMsg.fresh e) h || h.fragCount != 1 then give (d.breach sid 1 h e.via)
    else if b ≠ 0 || !ackShape e then give d
    else give (d.updCtx sid fun x => { x with acks := x.acks ++ [(x.epoch, e.skp.payload)] })
  else if c.received seq && (c.msg seq).isNone then
    let fs := match d.ctx sid with
      | some x => x.out.filter fun f => f.reqSeq == some seq && f.epoch == x.epoch && decide (0 < f.sent)
      | none => []
    (give (d.repeatOf sid fs sinceUs)).dropKey e.keyNo
  else go (d.joinMsg sid c e b)

/-- A SESSION_OPEN message handed to the session engine. -/
def openMsg (p : PortId) (e : RxEnt) (sid : Nat) (payload : List Byte) (via : Via) (h : SkpHdr) : OpenMsg :=
  { port := p, ip := e.srcIp, udp := e.srcUdp, v6 := e.v6, sid := sid, payload := payload, act := e.act,
    via := via, tag := h.tag.toNat, space := h.keySpace.toNat,
    bad := (h.flags &&& 0xF8#8) != 0 || h.status != 0 || decide (255 < h.keySpace.toNat) }

/-- Payload bytes of SESSION_OPEN phase 1 (Table 3-8). -/
def phase1Len : Nat := 136

/-- A phase 2 refusal (R109). -/
def Dev.sendRefusal2 (d : Dev) (o : OpenMsg) (status : Nat) : Dev :=
  d.enqueue o.port
    { via := o.via, size := frameSize o.v6 o.via.tagged (udpLenOf 0 false),
      item := .refusal2 status o.tag o.space o.ip o.udp }

/-- A phase 4 refusal: no payload, sealed under the keys given or clear. -/
def Dev.sendRefusal4 (d : Dev) (sid : Nat) (c : Ctx) (o : OpenMsg) (status : Nat) (keys : Option KeySet) : Dev :=
  let bytes := d.skpBytes sid c keys (txFlags keys.isSome false false false 0) 0 0 o.tag Op.sessionOpen status
    o.space 0 1 0 0 [] o.via.dst
  d.enqueue c.port
    { via := o.via, size := frameSize c.v6 o.via.tagged (udpLenOf 0 keys.isSome), item := .refusal4 sid c.udp bytes }

/-- A phase 1 frame: past the opcode's limit it is answered with TOO_LARGE (R89, R128), otherwise it waits for the
session engine, MALFORMED where its MSG_LEN is not that of Table 3-8 or a reserved byte is not 0 (R129, R85). -/
def Dev.commitOpen1 (d : Dev) (p : PortId) (e : RxEnt) : Dev :=
  let h := e.skp.hdr
  let o := openMsg p e (h.session.toNat % 16384) e.skp.payload e.via h
  let d := d.giveCells e.cells e.cells7
  let o := { o with bad := o.bad || h.msgLen.toNat != phase1Len || fieldBe o.payload 133 3 != 0 }
  if msgLimit Op.sessionOpen < h.msgLen.toNat then d.sendRefusal2 o St.tooLarge
  else { d with ses := { d.ses with opens := d.ses.opens ++ [o] } }

/-- A fragment of phase 3 from its context's peer: the message is put together like any other (R86, R90,
R92) and goes to the session engine once whole. An over-long one is answered with TOO_LARGE at fragment 0,
in the clear; one whose fragments break R86 is dropped (DESIGN CHOICE, log entry 87). -/
def Dev.commitOpen3 (d : Dev) (p : PortId) (sid : Nat) (c : Ctx) (e : RxEnt) : Dev :=
  let h := e.skp.hdr
  let give (d : Dev) : Dev := d.giveCells e.cells e.cells7
  let m := c.open3.getD (InMsg.fresh e)
  let d := d.restart sid
  if msgLimit Op.sessionOpen < h.msgLen.toNat then
    let d := give d
    if h.fragIndex = 0 then d.sendRefusal4 sid c (openMsg p e sid [] e.via h) St.tooLarge none else d
  else if m.frags.any fun f => f.1 == h.fragIndex.toNat then give (d.bump Base.ses F.SES_DUP_DROP_COUNT)
  else if !fragFits m h then (give (d.giveHeld m.held)).updCtx sid fun x => { x with open3 := none }
  else
    let zero := h.fragIndex == 0
    let frags := m.frags ++ [(h.fragIndex.toNat, h.fragOffset.toNat, e.skp.payload)]
    let hold : CellHold :=
      { off := h.fragOffset.toNat, len := e.skp.payload.length, c := e.cells, c7 := e.cells7 }
    let m := { m with
      frags := frags, frag0 := m.frag0 || zero, hdr := if zero then h else m.hdr,
      via := if zero then e.via else m.via, held := m.held ++ [hold] }
    let d := if m.frag0 then d.giveHeld m.held else d
    let m := if m.frag0 then { m with held := [] } else m
    if frags.length = h.fragCount.toNat then
      let d := d.updCtx sid fun x => { x with open3 := none }
      { d with ses := { d.ses with opens := d.ses.opens ++ [openMsg p e sid m.payload m.via m.hdr] } }
    else d.updCtx sid fun x => { x with open3 := some m }

/-- FRAGMENT_COMMIT: the oldest received SKP frame of a port commits or is dropped. `sinceUs` is how long
ago the responses it may ask for again were last resent (R102). -/
def doFragmentCommit (p : PortId) (sinceUs : Nat) (d : Dev) : Dev :=
  match (d.port p).rxq with
  | [] => d
  | e :: rest =>
    let d := d.updPort p fun x => { x with rxq := rest }
    let h := e.skp.hdr
    let sid := h.session.toNat % 16384
    let gone : Dev := (d.giveCells e.cells e.cells7).dropKey e.keyNo
    let drop (f : Fld) : Dev := gone.bump Base.ses f
    if d.resetting .sessionEngine then gone
    else if e.act = 1 then gone.bump Base.pol F.POL_TC_DROP_COUNT
    else if hdrBad e.skp (d.ctx sid) then drop F.SES_HDR_DROP_COUNT
    else if openPhase e.skp = some 1 then d.commitOpen1 p e
    else
      match d.ctx sid with
      | none => drop F.SES_TUPLE_DROP_COUNT
      | some c =>
        if openPhase e.skp = some 3 then
          if stranger c p e || c.st == .closing then drop F.SES_TUPLE_DROP_COUNT else d.commitOpen3 p sid c e
        else if tupleBad c p e then drop F.SES_TUPLE_DROP_COUNT
        else if tagPrevious c e.skp then
          (gone.restart sid).repeatOf sid (c.out.filter fun f => f.epoch + 1 == c.epoch && decide (0 < f.sent)) sinceUs
        else if !tagCurrent c e.skp then drop F.SES_TAG_FAIL_COUNT
        else d.commitMsg sid c e sinceUs

/-! ### Timers of messages -/

/-- Fragments held ahead of a gap go after REORDER_US (R90, R94); number 0 is phase 3 of SESSION_OPEN. -/
def doReorderTimeout (sid seq : Nat) (d : Dev) : Dev :=
  match d.ctx sid with
  | none => d
  | some c =>
    match c.msg seq with
    | none =>
      match c.open3 with
      | none => d
      | some m =>
        if seq ≠ 0 ∨ m.frag0 then d
        else ((d.giveHeld m.held).updCtx sid fun x => { x with open3 := none }).bump
          Base.ses F.SES_REORDER_DROP_COUNT
    | some m =>
      if m.cid.isSome then d
      else (d.dropMsg sid seq).bump Base.ses F.SES_REORDER_DROP_COUNT

/-- An admitted request that lacks a fragment after REASM_MS is abandoned and answered with BUSY (R91). With a
PUT_STREAM part its open stream is abandoned (DESIGN CHOICE, log entry 114: R91 and R155 do not say so; the stream
could not go on without the part's bytes). -/
def doReassemblyTimeout (sid seq : Nat) (d : Dev) : Dev :=
  match (d.ctx sid).bind (fun c => (c.msg seq).bind (·.cid)) with
  | none => d
  | some cid =>
    match d.cmd cid with
    | none => d
    | some c =>
      if c.gotAll || c.answered then d
      else
        let d := if c.op = Op.putStream then d.abandonStream c.sid c.space c.key else d
        let d := (d.settle sid seq).bump Base.ses F.SES_REASM_TIMEOUT_COUNT
        d.refuse cid St.busy []

/-- Queue an ACK message (R97), with the path, DSCP and ECN of the session's most recent request (DESIGN CHOICE,
log entry 110: R36 copies them from the request answered, and an ACK message answers none). Its series ends at
0xFFFF_FFFF, a number that is not sent itself (R114; DESIGN CHOICE, log entry 112: 'reaches' can be read to
include it). -/
def Dev.queueAck (d : Dev) (sid : Nat) (payload : List Byte) : Dev :=
  match d.ctx sid with
  | none => d
  | some c =>
    if c.ackTx = 0xFFFFFFFF ∧ c.isSealed then d
    else
      let d := d.updCtx sid fun x => { x with ackTx := nextSeq c.isSealed c.ackTx }
      d.enqueue c.port
        { via := c.via, size := frameSize c.v6 c.via.tagged (udpLenOf payload.length c.isSealed),
          item := .ackMsg sid c.epoch c.ackTx payload }

/-- An ACK message of a session waits in its port's queue. -/
def Dev.ackQueued (d : Dev) (sid : Nat) (p : PortId) : Bool :=
  (d.port p).txq.any fun e => match e.item with
    | .ackMsg s _ _ _ => s == sid
    | _ => false

/-- ACK_DELAY has passed with nothing sent on the session (R97); what is only queued has not been sent. -/
def doAckDelayTimer (sid : Nat) (d : Dev) : Dev :=
  match d.ctx sid with
  | none => d
  | some c =>
    if c.ackDue && c.st != .opening && !d.ackQueued sid c.port then d.queueAck sid (be 4 0 ++ be 2 0 ++ be 2 0) else d

/-- Lowest fragment index not received. -/
def InMsg.firstMissing (m : InMsg) : Nat :=
  ((List.range (m.frags.length + 1)).find? fun i => !(m.frags.any fun f => f.1 == i)).getD 0

/-- RECV_MAP from an index: bit k of byte j for fragment from + 8j + k, at most 128 bytes. -/
def recvMap (idx : List Nat) (from_ top : Nat) : List Byte :=
  (List.range (min 128 ((top - from_) / 8 + 1))).map fun j =>
    BitVec.ofNat 8 (((List.range 8).map fun k => b2n (idx.contains (from_ + 8 * j + k)) * 2 ^ k).sum)

/-- A message lacks a fragment below the highest received for REORDER_US: an ACK names it (R97). -/
def doPartAckTimer (sid seq : Nat) (d : Dev) : Dev :=
  match (d.ctx sid).bind (fun c => c.msg seq) with
  | none => d
  | some m =>
    let idx := m.frags.map (·.1)
    let top := idx.foldl max 0
    let lo := m.firstMissing
    if lo < top then
      let map := recvMap idx lo top
      d.queueAck sid (be 4 seq ++ be 2 lo ++ be 2 map.length ++ map)
    else d

/-- ACK: an ACK message's payload releases the fragments it names (R98, Table 3-4). -/
def doAck (sid : Nat) (d : Dev) : Dev :=
  match d.ctx sid with
  | none => d
  | some c =>
    match c.acks with
    | [] => d
    | (ep, p) :: rest =>
      let part := fieldBe p 0 4
      let lo := fieldBe p 4 2
      let map := slice p 8 (fieldBe p 6 2)
      let got (i : Nat) : Bool :=
        decide (i < lo) || (decide (lo ≤ i) && ((map[(i - lo) / 8]?).getD 0).getLsbD ((i - lo) % 8))
      let d := d.updCtx sid fun x => { x with acks := rest }
      if part = 0 ∨ p.length < 8 then d
      else (d.updCtx sid fun x => { x with
        out := x.out.filter fun f =>
          !(f.seq == part && f.epoch == ep && decide (0 < f.sent) && got f.idx) }).freeIfAcked sid

/-- The epoch a timer's fragment belongs to: the current one, or the one before, of which only the REKEY
answer is retained (R116). -/
def Ctx.timerEpoch (c : Ctx) (old : Bool) : Nat := if old then c.epoch - 1 else c.epoch

/-- The resend wait of a fragment passes (R100). -/
def doRtoTimer (sid seq frag : Nat) (old : Bool) (d : Dev) : Dev :=
  match d.ctx sid with
  | none => d
  | some c =>
    match c.frag (c.timerEpoch old) seq frag with
    | none => d
    | some f =>
      if f.sent = 0 ∨ c.paused then d
      else if d.fld Base.ses F.SES_TIMER_RTO_RETRY_MAX ≤ f.tries then
        d.updCtx sid fun x => { x with paused := true }
      else
        (d.updCtx sid fun x => { x with out := x.out.map fun g =>
          if g.seq == seq && g.idx == frag && g.epoch == f.epoch then { g with tries := g.tries + 1 }
          else g }).requeue sid [f]

/-- A fragment cut by an inverted FCS goes again from retention (R101). -/
def doUnderrunResend (sid seq frag : Nat) (old : Bool) (d : Dev) : Dev :=
  match (d.ctx sid).bind (fun c => c.frag (c.timerEpoch old) seq frag) with
  | none => d
  | some f => if f.cut then d.requeue sid [f] else d

/-- IDLE_S seconds without a message of the host close the session (R106). -/
def doIdleTimeout (sid : Nat) (d : Dev) : Dev :=
  match d.ctx sid with
  | none => d
  | some c => if c.st == .opening then d else d.endSession sid

/-! ### Opening (R108 to R111) -/

/-- The fragments of a SESSION_OPEN answer: SEQ 0, the request's TAG and KEY_SPACE (R85), kept for a repeat
(R110). -/
def openFrags (payload : List Byte) (size : Nat) (o : OpenMsg) : List OutFrag :=
  let m : Msg := { op := Op.sessionOpen, status := St.ok, space := o.space, tag := o.tag, more := false,
                   payload := payload, via := o.via, reqSeq := none, cid := none, swath := none, ownRec := none }
  let ps := pieces size payload
  fragsOf m 0 payload.length ps.length 0 false (fun _ => 0) 0 0 ps

/-- A SESSION_OPEN answer travels as one message with SEQ 0; one that has left the context is retained
again as sent before (R110). -/
def Dev.sendOpen (d : Dev) (sid : Nat) (fs : List OutFrag) (isSealed : Bool) : Dev :=
  match d.ctx sid with
  | none => d
  | some c =>
    let same (f : OutFrag) : Bool := fs.any fun g => f.seq == 0 && f.msgLen == g.msgLen && f.idx == g.idx
    let d := d.updCtx sid fun x =>
      if x.out.any same then x else { x with out := (x.out.filter fun f => f.seq != 0) ++ fs }
    fs.foldl (fun d f => d.enqueue c.port
      { via := f.via, size := frameSize c.v6 f.via.tagged (udpLenOf f.payload.length isSealed),
        item := .skp sid 0 0 f.idx }) d

/-- A phase 2 refusal: SESSION 0, MSG_LEN 0, no context (R109). -/
def Dev.refuseOpen (d : Dev) (o : OpenMsg) (status : Nat) : Dev :=
  ((d.bump Base.ses F.SES_OPEN_FAIL_COUNT).raise (shared 0x21)).sendRefusal2 o status

/-- A context of phase 1. -/
def openCtx (o : OpenMsg) (credit : Nat) (eph : List Byte) : Ctx :=
  let mode := fieldBe o.payload 1 1
  { st := .opening, port := o.port, ip := o.ip, udp := o.udp, v6 := o.v6, via := o.via,
    isSealed := bit mode 0, admin := bit mode 1, profile := 0, credit := credit,
    nonce := slice o.payload 4 32, phase1 := o.payload, phase2 := [], eph := eph, open3 := none, p2 := [], p4 := [],
    secret := [], keys := { kH2d := [], ivH2d := [], kD2h := [], ivD2h := [] }, openNo := 0,
    rxNext := 1, rxAck := 0, rxDone := [], txNext := 1, txAcked := 0, txSent := 0, ackTx := 1,
    ackRx := 0, epoch := 0, prev := none, rekeyDue := false, rekeying := false,
    closeSeen := false, msgs := [], out := [], streams := [], overRun := 0, frozenAt := none,
    paused := false, ackDue := false, acks := [], high0 := 0, highDone := 0, resetBy := none }

/-- The context a repeated phase 1 belongs to: the host's address and HOST_NONCE name it (R110). -/
def Dev.openCtxOf (d : Dev) (o : OpenMsg) : Option (Nat × Ctx) :=
  d.ses.ctx.find? fun e => e.2.ip == o.ip && e.2.nonce == slice o.payload 4 32

/-- The next SESSION_OPEN message of a phase leaves the queue. -/
def takeOpen (ph : Nat) : List OpenMsg → Option (OpenMsg × List OpenMsg)
  | [] => none
  | o :: t =>
    if fieldBe o.payload 0 1 = ph then some (o, t)
    else (takeOpen ph t).map fun r => (r.1, o :: r.2)

/-- Why phase 1 is refused, if it is (R109, R218). -/
def Dev.openRefusal (d : Dev) (o : OpenMsg) : Option Nat :=
  let mode := fieldBe o.payload 1 1
  let clear := !bit mode 0
  if o.act = 2 ∨ (o.act = 3 ∧ bit mode 1) then some St.permission
  else if o.payload.length ≠ phase1Len ∨ o.bad ∨ 4 ≤ mode then some St.malformed
  else if (clear && !bit (d.fld Base.ses F.SES_CTRL_CLEAR_PORTS) o.port.idx) || (bit mode 1 && clear) then
    some St.permission
  else if decide (16384 ≤ d.ses.ctx.length) ||
      decide (d.fld Base.ses F.SES_LIMIT_OPEN_RATE < d.ses.openWin) then some St.busy
  else none

/-- SESSION_OPEN phase 1: it takes a FREE context and is answered with phase 2, or is refused. -/
def doSessionOpenPhase1 (sid : Nat) (draw : OpenDraw) (d : Dev) : Dev :=
  match takeOpen 1 d.ses.opens with
  | none => d
  | some (o, rest) =>
    let d := { d with ses := { d.ses with opens := rest } }
    match d.openCtxOf o with
    | some (s, c) => (d.restart s).sendOpen s c.p2 false
    | none =>
      let d := { d with ses := { d.ses with openWin := d.ses.openWin + 1 } }
      match d.openRefusal o with
      | some st =>
        let mode := fieldBe o.payload 1 1
        let d := if o.act = 2 ∨ (o.act = 3 ∧ bit mode 1) then d.bump Base.pol F.POL_TC_OPEN_DENY_COUNT
          else d
        d.refuseOpen o st
      | none =>
        let sid := if sid < 16384 ∧ (look sid d.ses.ctx).isNone then sid else firstGap 0 d.ses.ctx
        let asked := fieldBe o.payload 2 2
        let dflt := d.fld Base.ses F.SES_CTRL_CREDIT_DEF
        let want := if asked = 0 then (if dflt = 0 then 4096 else dflt) else asked
        let credit := min want (min 4096 (d.fld Base.ses F.SES_LIMIT_CREDIT_MAX))
        let c := openCtx o credit draw.ephPriv
        let p2 := be 1 2 ++ be 1 (fieldBe o.payload 1 1) ++ be 2 credit ++ be 2 sid ++
          be 2 d.boot.cert.length ++ padTo 32 draw.driveNonce ++ padTo 97 draw.driveEph ++ zeros 3 ++
          d.boot.cert ++ padTo 96 draw.driveSig
        let size := maxFrag (d.maxUdp o.port o.v6) false
        let fs := openFrags p2 size o
        (d.setCtx sid { c with phase2 := p2, p2 := fs }).sendOpen sid fs false

/-- Why phase 3 fails, if it does: signature, chain, anchor, validity under trusted time, or ADMIN
that the anchor's profile does not allow (R108, R109). -/
def Dev.openPasses (d : Dev) (c : Ctx) (v : ChainVerdict) : Option Nat :=
  let now := d.calSec
  match v.anchor.bind (fun a => d.boot.set_.anchors[a]?) with
  | none => none
  | some prof =>
    let valid := !d.trusted || decide (v.notBefore ≤ now ∧ now ≤ v.notAfter)
    let admin := !c.admin || (d.profileOf prof).mask / 16 % 32 != 0
    if v.sigOk && v.chainOk && valid && admin then some prof else none

/-- A settings slot becomes ACTIVE and the other SUPERSEDED (R555); with OWNER_RELEASE in the image
applied, ownership ends (R563). -/
def Dev.settleSettings (d : Dev) : Dev :=
  let next (x : SlotSt) : SlotSt := match x with
    | .trial => .active
    | .pending => .active
    | .active => .superseded
    | .fallback => .superseded
    | x => x
  { d with boot := { d.boot with
      setA := next d.boot.setA, setB := next d.boot.setB,
      owner := if d.boot.set_.release_ && d.boot.set_.signer == 2 then none else d.boot.owner } }

/-- A settings trial is confirmed (R555). -/
def Dev.confirmSettings (d : Dev) : Dev :=
  if d.boot.setA = .trial ∨ d.boot.setB = .trial then d.settleSettings else d

/-- s[0] of a session (R111): from both nonces, the ECDH secret and TH3, which covers phases 1 and 2 and
phase 3 up to HOST_SIG. -/
def sessionSecret (c : Ctx) (phase3 : List Byte) : List Byte :=
  firstSecret c.nonce (slice c.phase2 8 32) (ecdhX c.eph (slice c.phase1 36 97))
    (sha384 (c.phase1 ++ c.phase2 ++ phase3.take (4 + fieldBe phase3 2 2)))

/-- Phase 3 has the length its CERT_LEN gives, CERT_LEN is at most 8,192, and its reserved byte is 0 (R129, R85,
Table 3-8). -/
def phase3Ok (o : OpenMsg) : Bool :=
  !o.bad && fieldBe o.payload 1 1 == 0 && o.payload.length == 100 + fieldBe o.payload 2 2 && decide (fieldBe o.payload 2 2 ≤ 8192)

/-- SESSION_OPEN phase 3: the chain is judged, and phase 4 grants a profile or refuses. A MALFORMED phase 3 is
refused in the clear, and its context waits on for a good one (DESIGN CHOICE, log entry 87). -/
def doSessionOpenPhase3 (sid : Nat) (v : ChainVerdict) (d : Dev) : Dev :=
  match takeOpen 3 (d.ses.opens.filter fun o => o.sid == sid) with
  | none => d
  | some (o, _) =>
    let d := { d with ses := { d.ses with opens := d.ses.opens.erase o } }
    match d.ctx sid with
    | none => d
    | some c =>
      if !c.p4.isEmpty then d.sendOpen sid c.p4 c.isSealed
      else if c.st != .opening then d
      else if !phase3Ok o then d.sendRefusal4 sid c o St.malformed none
      else
        let secret := if c.isSealed then sessionSecret c o.payload else []
        let keys := keysOf secret
        match d.openPasses c v with
        | none =>
          let d := (d.bump Base.ses F.SES_OPEN_FAIL_COUNT).raise (shared 0x21)
          ((d.clearTx sid).freeCtx sid).sendRefusal4 sid c o St.permission
            (if c.isSealed then some keys else none)
        | some prof =>
          let p4 := be 1 4 ++ be 1 prof ++ zeros 2
          let fs := openFrags p4 (maxFrag (d.maxUdp c.port c.v6) c.isSealed) o
          let no := d.ses.openSeq
          let d := d.setCtx sid { c with
            st := .opened, profile := prof, openNo := no, p4 := fs, out := [], via := o.via,
            eph := [], secret := secret, keys := keys }
          let d := { d with ses := { d.ses with openSeq := no + 1 } }
          let d := (d.bump Base.ses F.SES_OPEN_OK_COUNT).sendOpen sid fs c.isSealed
          if c.admin then d.confirmSettings else d

/-- Phase 3 has not come in time: the context returns to FREE (R110). -/
def doSessionOpenTimeout (sid : Nat) (d : Dev) : Dev :=
  match d.ctx sid with
  | none => d
  | some c => if c.st == .opening then (d.clearTx sid).freeCtx sid else d

/-! ### Closing (R107) -/

/-- Requests of a session other than one that still hold anything. -/
def Dev.othersOf (d : Dev) (sid cid : Nat) : List (Nat × Cmd) :=
  d.disp.cmds.filter fun e => e.2.sid == sid && e.1 != cid

/-- A refusal of the session engine that has not been sent: a completion of its request (R107, R122). -/
def Ctx.refusalWaits (c : Ctx) : Bool :=
  c.out.any fun f => f.reqSeq.isSome && f.cid.isNone && !f.good && f.epoch == c.epoch

/-- SESSION_CLOSE is answered once every earlier request has sent its last response, refusals included; the
context lingers in CLOSING. One admitted before its session froze runs to completion like any other request and
closes it (DESIGN CHOICE, log entry 115: R118 lets it run, R119 does not name it among the ends of a frozen
session). -/
def doSessionClose (cid : Nat) (d : Dev) : Dev :=
  match d.cmd cid with
  | none => d
  | some c =>
    if c.op ≠ Op.sessionClose ∨ c.st ≠ .inSession ∨ !(d.othersOf c.sid cid).isEmpty ∨
        ((d.ctx c.sid).map (·.refusalWaits)).getD false then d
    else
      let d := d.answer cid St.ok []
      match d.ctx c.sid with
      | none => d
      | some x =>
        let d := x.streams.foldl (fun d s => d.dropStream s) d
        let d := d.updCtx c.sid fun y => { y with st := .closing, streams := [] }
        let d := d.updDisp fun y => { y with
          defLog := y.defLog.map fun e =>
            (e.1, if e.2.sid == c.sid && !e.2.delivered then { e.2 with orphan := true } else e.2) }
        d.ntfGone c.sid

/-- A CLOSING context becomes FREE: its answer is acknowledged, or LINGER_MS has passed (R107). -/
def doLingerTimeout (sid : Nat) (d : Dev) : Dev :=
  match d.ctx sid with
  | none => d
  | some c => if c.st == .closing then d.endSession sid else d

/-! ### REKEY (R115 to R117) -/

/-- REKEY's tests; an acceptable one stands until REKEY_ANSWER. -/
def doRekey (cid : Nat) (d : Dev) : Dev :=
  match d.cmd cid with
  | none => d
  | some q =>
    if q.op ≠ Op.rekey ∨ q.st ≠ .inSession ∨ !q.gotAll then d
    else
      match d.ctx q.sid with
      | none => d
      | some c =>
        let release (d : Dev) : Dev :=
          (d.updCtx q.sid fun x => { x with rekeying := false }).admitMore q.sid
        if !c.isSealed then release (d.answer cid St.malformed [])
        else if c.epoch = 65535 then release (d.answer cid St.keyEpochExhausted [])
        else if fieldBe q.payload 0 2 ≠ c.epoch + 1 then release (d.answer cid St.malformed [])
        else d.updCmd cid fun x => { x with st := .running }

/-- REKEY_ANSWER: earlier requests are done and every fragment sent is acknowledged; the answer goes
under the old epoch and the session moves to the new one, whose secret follows from the old (R111, R115,
R116). Messages that are RECEIVING or HELD behind the REKEY belong to the epoch that ends: they are dropped
and counted nowhere (DESIGN CHOICE, log entry 88: the spec does not say what becomes of them). -/
def doRekeyAnswer (cid : Nat) (d : Dev) : Dev :=
  match d.cmd cid with
  | none => d
  | some q =>
    match d.ctx q.sid with
    | none => d
    | some c =>
      if q.op ≠ Op.rekey ∨ q.st ≠ .running ∨ !(d.othersOf q.sid cid).isEmpty ∨
          !(c.out.filter fun f => f.epoch == c.epoch && f.seq != 0).isEmpty then d
      else
        let d := (d.noteRekeyDue q.sid c.txNext).answer cid St.ok (q.payload.take 4)
        let d := (d.bump Base.ses F.SES_REKEY_COUNT).updCtx q.sid fun x => { x with
          epoch := c.epoch + 1, prev := some { keys := x.keys, seq := q.seq, rxAck := x.rxAck, due := x.rekeyDue },
          secret := nextSecret x.secret, keys := keysOf (nextSecret x.secret), rekeying := false, rekeyDue := false,
          rxNext := 1, rxAck := 0, rxDone := [], txNext := 1, txAcked := 0, txSent := 0, ackTx := 1,
          ackRx := 0, highDone := 0, high0 := 0 }
        let d := (d.freeMsgs c.msgs).updCtx q.sid fun x => { x with msgs := [] }
        d

/-! ### QUEUE_RESET: markers and answer (R122 to R125, R201 to R204) -/

/-- QUEUE_RESET: the abort markers of the reset point go to every swath that holds the target's other
commands (R121, R201). A session in FREE or CLOSING is refused with MALFORMED (R125), and one in OPENING in
the same way (DESIGN CHOICE, log entry 84: R125 names only FREE and CLOSING); a target under another
QUEUE_RESET is BUSY. -/
def doQueueReset (cid : Nat) (d : Dev) : Dev :=
  match d.cmd cid with
  | none => d
  | some q =>
    if q.op ≠ Op.queueReset ∨ q.st ≠ .inSession ∨ !q.gotAll then d
    else
      let d := if q.resume = 0 then d.noteReset cid else d
      let target := fieldBe q.payload 0 2 % 16384
      match d.ctx target with
      | none => d.answer cid St.malformed []
      | some t =>
        if t.resetBy = some cid then
          d.updCmd cid fun x => { x with st := .running, markers := d.swathsOf target }
        else d.answer cid (if t.resetBy.isSome then St.busy else St.malformed) []

/-- What an abort marker does to one command at a swath (R202, R203): a change past its order point, at either
swath of a paired key, a paired write whose switch order is out and a read that has begun to answer run on; every
other command is aborted, and nothing of it is applied (R121). -/
def Dev.markerOn (d : Dev) (e : Nat × Cmd) : Dev × Nat :=
  let c := e.2
  let safe := !c.passed.isEmpty && !isRead c.op || c.ordered || c.started || c.answered
  if safe then (d, 0) else (d.abortCmd e.1, 1)

/-- An abort marker arrives at a swath that is neither frozen nor under reset (R201, R202). -/
def doAbortMarkerArrive (n : Fin 16) (cid : Nat) (d : Dev) : Dev :=
  match d.cmd cid with
  | none => d
  | some q =>
    if q.op ≠ Op.queueReset ∨ !q.markers.contains n ∨ d.swFrozen n ∨ d.resetting (.swath n) then d
    else
      let mine := d.disp.cmds.filter fun e =>
        e.2.sid == q.target && e.1 != cid && e.2.owners.contains n && e.2.st != .complete
      let r := mine.foldl (fun (a : Dev × Nat) e =>
        let x := a.1.markerOn e
        (x.1, a.2 + x.2)) (d, 0)
      r.1.updCmd cid fun x => { x with
        markers := x.markers.filter (· != n), aborted := x.aborted + r.2 }

/-- Commands of the target that were completed before the answer must have been sent, refusals of the session
engine included (R122, R204). -/
def Dev.resetWaits (d : Dev) (q : Cmd) (cid : Nat) : Bool :=
  !q.markers.isEmpty || (d.disp.cmds.any fun e => e.2.sid == q.target && e.1 != cid) ||
    ((d.ctx q.target).map (·.refusalWaits)).getD false

/-- Only an admin session releases a frozen one (R119). -/
def Dev.mayRelease (d : Dev) (sid : Nat) : Bool := ((d.ctx sid).map (·.admin)).getD false

/-- QUEUE_RESET_ANSWER: every marker is answered and every completion ahead of them is sent; the target
is OPEN with all its credits, and continues at RESUME_SEQ (R122 to R124, R204). Where the target's context has
ended since the reset point the answer is MALFORMED, and a session opened since under its identifier is left as it
is (DESIGN CHOICE, log entry 116: the spec does not say). -/
def doQueueResetAnswer (cid : Nat) (d : Dev) : Dev :=
  match d.cmd cid with
  | none => d
  | some q =>
    if q.op ≠ Op.queueReset ∨ q.st ≠ .running ∨ d.resetWaits q cid then d
    else
      match d.ctx q.target with
      | none => d.answer cid St.malformed []
      | some t =>
        if t.resetBy ≠ some cid then d.answer cid St.malformed [] else
        let prev := if q.resume = 1 then (if t.isSealed then 0 else seqMod) else q.resume - 1
        let body := be 4 t.highDone ++ be 4 q.aborted ++ be 4 q.resume
        let held := t.msgs.filter fun m => !seqBelow t.isSealed m.seq q.resume || m.cid.isSome
        let gone := t.msgs.filter fun m => seqBelow t.isSealed m.seq q.resume && m.cid.isNone
        let d := d.freeMsgs gone
        let ack := seqMax t.isSealed t.rxAck (if q.resume = 1 ∧ !t.isSealed ∧ t.rxAck = 0 then 0 else prev)
        let done := t.rxDone.filter fun n => !seqUpTo t.isSealed n ack
        let r := advanceAck t.isSealed (done.length) ack done
        let d := d.updCtx q.target fun x => { x with
          st := if x.st == .frozen && d.mayRelease q.sid then .opened else x.st, resetBy := none, overRun := 0,
          rxNext := q.resume, rxAck := r.1, rxDone := r.2, msgs := held,
          frozenAt := if x.st == .frozen && !d.mayRelease q.sid then x.frozenAt else none }
        let d := d.answer cid St.ok body
        let d := if q.target = q.sid then d
          else d.send q.target
            { op := Op.queueReset, status := St.queueReset, space := 0, tag := 0, more := false,
              payload := body, via := t.via, reqSeq := none, cid := none, swath := none,
              ownRec := none } (fun _ => 0)
        d.admitMore q.target

end Sys2Proof.Machine
end

