-- ==== Sys2Proof/Machine/Transmit.lean ====
section
/-!
DEFINITION. The transmit side of a port: choosing the next frame (R50, R58), what goes on the wire
(R36 to R39, R83, R112), what sending a fragment means for its session (R96, R99, R103, R113), and
underrun levels (R59 to R61).
-/
namespace Sys2Proof.Machine

/-! ### Rate and fit -/

/-- Megabits per second of a port's RATE. -/
def mbps (p : PortId) (rate : Nat) : Nat :=
  match p, rate with
  | .c, 1 => 10000 | .c, 2 => 5000 | .c, 3 => 2500 | .c, 4 => 1000
  | _, 1 => 100000 | _, 2 => 50000 | _, 3 => 25000 | _, 4 => 10000
  | _, _ => 1

/-- Nanoseconds a frame takes on the wire, preamble and inter-frame gap included. -/
def Dev.wireNs (d : Dev) (p : PortId) (size : Nat) : Nat :=
  ceilDiv ((size + 20) * 8000) (mbps p (d.fld (Base.prt p) F.PRT_STATUS_RATE))

/-- The frame ends before its gate closes; `left` gives the time until then for each class (R58). -/
def Dev.fits (d : Dev) (p : PortId) (e : TxEnt) (left : List Nat) : Bool :=
  e.via.cls == macControl || !d.flag (Base.prt p) F.PRT_GCL_CTRL_GATE_EN ||
    decide (d.wireNs p e.size ≤ left.getD e.via.cls 0)

/-- The partner's pause holds a class: an 802.3 pause stops every frame, PFC the classes it names (R44). -/
def Dev.pausedCls (d : Dev) (p : PortId) (cls : Nat) : Bool :=
  d.flag (Base.prt p) F.PRT_STATUS_PAUSED ||
    (decide (cls < macControl) && bit (d.fld (Base.prt p) F.PRT_STATUS_PFC_PAUSED) cls)

/-! ### What lets a fragment leave (R98, R99, R331) -/

/-- Fragments of a session sent and not acknowledged. -/
def Ctx.outstanding (c : Ctx) : Nat := (c.out.filter fun f => decide (0 < f.sent)).length

/-- Bytes retained in one area: a swath's 1 GiB, or the session engine's 4 MiB (none). -/
def Dev.retained (d : Dev) (area : Option Nat) : Nat :=
  (d.ses.ctx.map fun e =>
    ((e.2.out.filter fun f => decide (0 < f.sent) && f.swath == area).map
      fun f => f.payload.length).sum).sum

def areaBytes (area : Option Nat) : Nat :=
  match area with
  | some _ => 2 ^ 30
  | none => 2 ^ 22

/-- Sheaves opened for the command a fragment answers. -/
def Dev.openedFor (d : Dev) (f : OutFrag) : Option Nat := (f.cid.bind d.cmd).map (·.opened)

/-- Every byte of the fragment has been released by the cipher. -/
def Dev.released (d : Dev) (f : OutFrag) : Bool :=
  match d.openedFor f with
  | some n => decide (f.need ≤ n)
  | none => true

/-- A fragment may leave: its data is there, and it has been sent before, or the window and the retention
area have room. -/
def Dev.mayLeave (d : Dev) (c : Ctx) (f : OutFrag) : Bool :=
  d.released f &&
    (decide (0 < f.sent) ||
      (decide (c.outstanding < d.fld Base.ses F.SES_WIN_SEND_WIN) &&
        decide (d.retained f.swath + f.payload.length ≤ areaBytes f.swath)))

/-- An entry of the transmit queue may go now. -/
def Dev.ready (d : Dev) (e : TxEnt) : Bool :=
  match e.item with
  | .skp sid ep seq idx =>
    match d.ctx sid with
    | none => false
    | some c =>
      match c.frag ep seq idx with
      | none => false
      | some f => d.mayLeave c f
  | _ => true

/-- The first entry of a class that may go, with the queue without it. -/
def Dev.takeTx (d : Dev) (p : PortId) (cls : Nat) (left : List Nat) :
    List TxEnt → Option (TxEnt × List TxEnt)
  | [] => none
  | e :: t =>
    if e.via.cls = cls ∧ d.ready e then
      (if d.fits p e left then some (e, t) else none)
    else (d.takeTx p cls left t).map fun r => (r.1, e :: r.2)

/-- Classes from the highest down: MAC control frames, then 7 to 0 (R50). Fragments no longer retained leave
the queue without going on the wire. -/
def Dev.chooseTx (d : Dev) (p : PortId) (left : List Nat) : Option (TxEnt × List TxEnt) :=
  [8, 7, 6, 5, 4, 3, 2, 1, 0].findSome? fun cls =>
    if d.gateOpen p cls && !d.pausedCls p cls then d.takeTx p cls left (d.toSend p) else none

/-! ### What a fragment is sealed and stamped with -/

/-- Whether a fragment travels sealed: SESSION_OPEN phase 2 never does; phase 4 is told from it by its
payload of 4 bytes (Table 3-8). -/
def fragSealed (c : Ctx) (f : OutFrag) : Bool :=
  c.isSealed && !(f.op == Op.sessionOpen && f.msgLen != 4)

/-- What a session stamps on messages of one of its epochs: keys, RX_ACK and REKEY_DUE. Of the epoch before
it keeps them while the REKEY answer is retained (R116). -/
def Ctx.stamps (c : Ctx) (epoch : Nat) : Option PrevEpoch :=
  if epoch = c.epoch then some { keys := c.keys, seq := 0, rxAck := c.rxAck, due := c.rekeyDue }
  else if epoch + 1 = c.epoch then c.prev
  else none

/-! ### Headers of the frames sent (R36, R51) -/

/-- The IPv4 header checksum. -/
def ipv4Csum (h : IpOut) : Nat :=
  balanceWord (be 1 0x45 ++ be 1 (4 * h.dscp + h.ecn) ++ be 2 h.len ++ be 2 h.ident ++
    be 2 (16384 * b2n h.df) ++ be 1 h.ttl ++ be 1 h.proto ++ be 4 h.src.toNat ++ be 4 h.dst.toNat)

/-- The IP header of a packet from the port address a message named (R36). IPv4 addresses are in the form
::FFFF:a.b.c.d. -/
def Dev.ipOut (d : Dev) (p : PortId) (via : Via) (v6 : Bool) (dst : BitVec 128) (proto len : Nat)
    (ports : Nat × Nat) : IpOut :=
  let src := if v6 then ofBe (d.srcAddr p true via.dst) else mapped (d.ipv4 p)
  let h : IpOut :=
    { v6 := v6, src := BitVec.ofNat 128 src, dst := dst, dscp := via.dscp, ecn := via.ecn,
      ttl := d.fld (Base.prt p) F.PRT_IP_TTL, df := !v6, ident := 0,
      len := if v6 then len else len + 20, csum := 0, proto := proto, srcPort := ports.1,
      dstPort := ports.2 }
  { h with csum := if v6 then 0 else ipv4Csum h }

/-- The IP and UDP headers of an SKP frame. -/
def Dev.skpOut (d : Dev) (p : PortId) (via : Via) (v6 : Bool) (dst : BitVec 128) (udp : BitVec 16)
    (bytes : List Byte) : IpOut :=
  d.ipOut p via v6 dst 17 (bytes.length + 8) (d.fld Base.ses F.SES_CTRL_UDP_PORT, udp.toNat)

/-- A frame goes on the wire. A tagged one carries DEF_VID (R51). -/
def Dev.putWire (d : Dev) (p : PortId) (e : TxEnt) (ip : Option IpOut) (csum : Nat) (udp : List Byte)
    (good : Bool) : Dev :=
  let w : WireFrame :=
    { item := e.item, via := e.via,
      vid := if e.via.tagged then d.fld (Base.prt p) F.PRT_FRAME_DEF_VID else 0,
      ip := ip, csum := csum, udp := udp, fcsOk := good }
  d.updPort p fun x => { x with last := some w }

/-! ### Sending -/

/-- Every fragment of every response message to the request a fragment answers has left whole, the last
message generated (R103, R122). -/
def Dev.allSent (d : Dev) (sid : Nat) (f : OutFrag) : Bool :=
  match d.ctx sid with
  | none => false
  | some c =>
    f.reqSeq.isSome && (c.out.all fun h => h.good || !(h.reqSeq == f.reqSeq && h.epoch == f.epoch)) &&
      (match f.cid.bind d.cmd with
       | some q => q.answered
       | none => true)

/-- The last response message of a request has been sent: HIGH_DONE follows (R204), and its credit returns
with the command (R103). -/
def Dev.lastSent (d : Dev) (sid : Nat) (f : OutFrag) : Dev :=
  let d := d.updCtx sid fun x => { x with
    highDone := match f.reqSeq with
      | some n => if f.epoch = x.epoch then seqMax x.isSealed x.highDone n else x.highDone
      | none => x.highDone }
  match f.cid with
  | some cid => d.dropCmd cid
  | none => d

/-- Fragments of one message. -/
def OutFrag.sibling (f g : OutFrag) : Bool := g.seq == f.seq && g.epoch == f.epoch

/-- A fragment keeps, for every resend, the UDP payload it left with (R96). -/
def OutFrag.leaves (f : OutFrag) (ack : Nat) (wire : List Byte) (good : Bool) : OutFrag :=
  { f with sent := f.sent + 1, good := f.good || good, cut := !good,
           ackAt := if f.sent = 0 then ack else f.ackAt, wire := if f.sent = 0 then wire else f.wire }

/-- What changes in a retained list when fragment f leaves: f itself, and the REKEY_DUE of its message,
fixed with its first fragment (R86). -/
def leave (f g : OutFrag) (due : Bool) (l : List OutFrag) : List OutFrag :=
  l.map fun h =>
    if f.sibling h && h.msgLen == f.msgLen then
      { (if h.idx == f.idx then g else h) with rekeyAt := some (h.rekeyAt.getD due) }
    else h

/-- The UDP payload of a fragment's first sending. -/
def Dev.fragBytes (d : Dev) (sid : Nat) (c : Ctx) (f : OutFrag) (k : PrevEpoch) : List Byte :=
  let keys := if fragSealed c f then some k.keys else none
  let flags := txFlags keys.isSome f.more f.deferred (f.rekeyAt.getD k.due) f.epoch
  d.skpBytes sid c keys flags f.seq (if f.seq = 0 then 0 else k.rxAck) f.tag f.op f.status f.space f.idx
    f.count f.msgLen f.off f.payload f.via.dst

/-- Send one fragment of a session: for the first time under the keys of its epoch, later unchanged. -/
def Dev.sendFrag (d : Dev) (sid : Nat) (c : Ctx) (f : OutFrag) (e : TxEnt) (good : Bool) : Dev :=
  let first := f.sent == 0
  let d :=
    if !first then d.bump Base.ses F.SES_RESEND_COUNT
    else if f.epoch = c.epoch then d.noteRekeyDue sid f.seq
    else d
  let c := (d.ctx sid).getD c
  match c.stamps f.epoch with
  | none =>
    if first then d else
      let d := d.updCtx sid fun x => { x with out := leave f (f.leaves f.ackAt f.wire good) false x.out, ackDue := false }
      d.putWire c.port e (some (d.skpOut c.port f.via c.v6 c.ip c.udp f.wire)) 0xFFFF f.wire good
  | some k =>
    let bytes := if first then d.fragBytes sid c f k else f.wire
    let g := f.leaves (if f.seq = 0 then 0 else k.rxAck) bytes good
    let d := d.updCtx sid fun x => { x with
      out := leave f g k.due x.out, p2 := leave f g k.due x.p2, p4 := leave f g k.due x.p4,
      txSent := if f.epoch = x.epoch then seqMax x.isSealed x.txSent f.seq else x.txSent,
      ackDue := false }
    let d := d.putWire c.port e (some (d.skpOut c.port f.via c.v6 c.ip c.udp bytes)) 0xFFFF bytes good
    if good && !f.good && d.allSent sid f then d.lastSent sid f else d

/-- Send an ACK message under the keys of the epoch that numbered it (R97, R116); with them gone it
vanishes. -/
def Dev.sendAck (d : Dev) (sid epoch seq : Nat) (payload : List Byte) (e : TxEnt) (good : Bool) : Dev :=
  match d.ctx sid with
  | none => d
  | some c =>
    let d := if epoch = c.epoch then d.noteRekeyDue sid seq else d
    let c := (d.ctx sid).getD c
    match c.stamps epoch with
    | none => d
    | some k =>
      let keys := if c.isSealed then some k.keys else none
      let bytes := d.skpBytes sid c keys (txFlags c.isSealed false false k.due epoch) seq k.rxAck 0 Op.ack 0 0
        0 1 payload.length 0 payload e.via.dst
      let d := d.updCtx sid fun x => { x with ackDue := false }
      d.putWire c.port e (some (d.skpOut c.port e.via c.v6 c.ip c.udp bytes)) 0xFFFF bytes good

/-- The UDP payload of a phase 2 refusal: SESSION 0, SEQ 0, no payload (R109). -/
def Dev.refusal2Bytes (d : Dev) (p : PortId) (e : TxEnt) (status tag space : Nat) (ip : BitVec 128)
    (udp : BitVec 16) : List Byte :=
  let hdr := be 1 1 ++ be 1 1 ++ be 2 0 ++ be 4 0 ++ be 4 0 ++ be 2 tag ++ be 1 Op.sessionOpen ++
    be 1 status ++ be 2 space ++ be 2 0 ++ be 2 1 ++ zeros 10
  balanced (d.pseudo p (e.via.dst != .v4) e.via.dst ip udp (udpLenOf 0 false)) hdr

/-- The IP header of an answer the port gives itself: ICMP and ICMPv6. Its length is that of the frame
answered, padding included (DESIGN CHOICE, log entry 80: the frame's own length field is no operand). -/
def Dev.icmpOut (d : Dev) (p : PortId) (e : TxEnt) : IpOut :=
  let v6 := e.via.dst != .v4
  d.ipOut p e.via v6 e.via.peer (if v6 then 58 else 1)
    (e.size - 18 - (if e.via.tagged then 4 else 0) - (if v6 then 40 else 20)) (0, 0)

/-- A frame that is no fragment of a session. -/
def Dev.sendOther (d : Dev) (p : PortId) (e : TxEnt) (good : Bool) : Dev :=
  let v6 := e.via.dst != .v4
  match e.item with
  | .ackMsg sid ep seq payload => d.sendAck sid ep seq payload e good
  | .refusal2 status tag space ip udp =>
    let bytes := d.refusal2Bytes p e status tag space ip udp
    d.putWire p e (some (d.skpOut p e.via v6 ip udp bytes)) 0xFFFF bytes good
  | .refusal4 _ port udp =>
    d.putWire p e (some (d.skpOut p e.via v6 e.via.peer port udp)) 0xFFFF udp good
  | .delayReq =>
    let t := d.stampAt 0 (d.fld (Base.prt p) F.PRT_PTP_LAT_TX_LAT)
    let d := d.updPort p fun x => { x with txStamp := some t }
    (d.putWire p e none 0 [] good).enqueue p { e with item := .followUp t.1 t.2 }
  | .echoReply => d.putWire p e (some (d.icmpOut p e)) 0 [] good
  | .neighbourAdv => d.putWire p e (some (d.icmpOut p e)) 0 [] good
  | _ => d.putWire p e none 0 [] good

/-- The current cut-through level of a class. -/
def Dev.ctLevel (d : Dev) (p : PortId) (cls : Nat) : Nat :=
  (d.fld (Base.prt p) F.PRT_CT_LEVEL_LEVEL >>> (3 * cls)) % 8

/-- Set a class's level. -/
def Dev.setLevel (d : Dev) (p : PortId) (cls v : Nat) : Dev :=
  let old := d.fld (Base.prt p) F.PRT_CT_LEVEL_LEVEL
  d.setFld (Base.prt p) F.PRT_CT_LEVEL_LEVEL (old - d.ctLevel p cls * 8 ^ cls + v * 8 ^ cls)

/-- The counts of a sent frame. -/
def Dev.countSent (d : Dev) (p : PortId) (e : TxEnt) : Dev :=
  let d := d.portCount p Cnt.txOk 1
  let o := (d.port p).octTx + e.size
  let d := d.updPort p fun x => { x with
    octTx := o % 64, sentGood := addAt e.via.cls 1 x.sentGood }
  let d := d.portCount p Cnt.txOctets (o / 64)
  match e.item with
  | .pauseF _ _ => d.portCount p Cnt.txPause 1
  | _ => d

/-- A frame leaves the queue and goes on the wire. -/
def Dev.emit (d : Dev) (p : PortId) (e : TxEnt) (rest : List TxEnt) (good : Bool) : Dev :=
  let d := (d.setFld (Base.prt p) F.PRT_STATUS_LPI 0).updPort p fun x => { x with txq := rest }
  match e.item with
  | .skp sid ep seq idx =>
    match (d.ctx sid).bind (fun c => (c.frag ep seq idx).map fun f => (c, f)) with
    | none => d
    | some (c, f) => (if good then d.countSent p e else d).sendFrag sid c f e good
  | _ => (if good then d.countSent p e else d).sendOther p e good

/-- FRAME_TRANSMIT (R50): the next frame of the highest open, unpaused class that ends before its gate
closes; `left` gives for each class the time until its gate closes, in nanoseconds. -/
def doFrameTransmit (p : PortId) (left : List Nat) (d : Dev) : Dev :=
  if !d.portCarries p then d
  else
    match d.chooseTx p left with
    | none => d
    | some (e, rest) => d.emit p e rest true

/-- A frame that has waited a whole cycle without a window large enough is dropped (R58), outside a rate
step, in which nothing is counted (R66). A fragment stays retained and counts as sent, so that R100 sends it
again: as the session engine built it, it has left for the port. -/
def doGateHeldDrop (p : PortId) (cls : Nat) (d : Dev) : Dev :=
  if !d.flag (Base.prt p) F.PRT_GCL_CTRL_GATE_EN || d.flag (Base.prt p) F.PRT_STATUS_STEPPING then d
  else
    match d.takeTx p cls (List.replicate 9 (10 ^ 12)) (d.toSend p) with
    | none => d
    | some (e, rest) =>
      let d := (d.updPort p fun x => { x with txq := rest }).portCount p Cnt.txGateHeld 1
      match e.item with
      | .skp sid ep seq idx =>
        match (d.ctx sid).bind (fun c => (c.frag ep seq idx).map fun f => (c, f)) with
        | none => d
        | some (c, f) =>
          let d := if f.sent = 0 ∧ f.epoch = c.epoch then d.noteRekeyDue sid f.seq else d
          let c := (d.ctx sid).getD c
          match c.stamps f.epoch with
          | none => d
          | some k =>
            let bytes := if f.sent = 0 then d.fragBytes sid c f k else f.wire
            let g := { f.leaves (if f.seq = 0 then 0 else k.rxAck) bytes false with cut := false }
            d.updCtx sid fun x => { x with
              out := leave f g k.due x.out,
              txSent := if f.epoch = x.epoch then seqMax x.isSealed x.txSent f.seq else x.txSent }
      | _ => d

/-- Payload fails to arrive in time for a frame on the wire: it ends with an inverted FCS and the
class's level rises by one, to at most 5 (R60). The frame is the one the port would send: what has gone on the
wire of it the cipher had released (R331). -/
def doTxUnderrun (p : PortId) (left : List Nat) (d : Dev) : Dev :=
  if !d.portCarries p then d
  else
    match d.chooseTx p left with
    | none => d
    | some (e, rest) =>
      match e.item with
      | .skp _ _ _ _ =>
        let d := d.emit p e rest false
        let d := (d.portCount p Cnt.txUnderrun 1).setLevel p e.via.cls (min 5 (d.ctLevel p e.via.cls + 1))
        (d.updPort p fun x => { x with sentGood := subAt e.via.cls (lookD e.via.cls 0 x.sentGood) x.sentGood }).raise
          (shared (0x04 + 8 * p.idx))
      | _ => d

/-- DECAY frames of a class have gone without underrun at a level above CT_BASE: it falls by one
(R61). -/
def doCtLevelDecay (p : PortId) (cls : Nat) (d : Dev) : Dev :=
  let b := Base.prt p
  if d.fld b F.PRT_CT_CT_BASE < d.ctLevel p cls ∧
      d.fld b F.PRT_CT_DECAY ≤ lookD cls 0 (d.port p).sentGood then
    (d.setLevel p cls (d.ctLevel p cls - 1)).updPort p fun x => { x with
      sentGood := subAt cls (lookD cls 0 x.sentGood) x.sentGood }
  else d

end Sys2Proof.Machine
end

