-- ==== Sys2Proof/Machine/Copy.lean ====
section
/-!
DEFINITION. The two copies of a paired key (R268 to R270): finding the other copy, moving a key's sealed value to
another swath (R328), repairing a copy from the other (R195, R333), and opening a key's record (R254, R335).
-/
namespace Sys2Proof.Machine

/-- The other copy of a paired key, when its record can be read and it holds the same version (R268, R333). -/
def Dev.twin (d : Dev) (n : Fin 16) (k : KeyEnt) : Option (Fin 16 × KeyEnt) :=
  if !k.paired then none
  else
    let s := d.slot (hashSlot k.hash)
    ([s.owner, s.partner].filter fun m => m != n && d.online m).findSome? fun m =>
      match (d.sw m).find k.space k.key with
      | some x => if x.version == k.version && !(d.sw m).recLost x then some (m, x) else none
      | none => none

/-- Sheaves of a copy that it cannot give: known to fail their tag, or LOST. -/
def Swath.badOf (s : Swath) (k : KeyEnt) : List Nat :=
  (s.lostSheaves k).foldl (fun l i => insertNat i l) k.badSheaves

/-- The other copy, when it holds every sheaf that a copy lacks (R195, R333). -/
def Dev.otherCopy (d : Dev) (n : Fin 16) (k : KeyEnt) : Option (Fin 16 × KeyEnt) :=
  match d.twin n k with
  | none => none
  | some (m, x) =>
    let lacks := if (d.sw n).recLost k then List.range (sheavesOf x.value.length) else (d.sw n).badOf k
    if lacks.all fun i => !((d.sw m).lostSheaves x).contains i then some (m, x) else none

/-- Either copy of a paired key has AHEAD at 1 (R270). -/
def Dev.eitherAhead (d : Dev) (space : Nat) (key : List Byte) (hash : DWord) : Bool :=
  let s := d.slot (hashSlot hash)
  [s.owner, s.partner].any fun m =>
    match (d.sw m).find space key with
    | some x => x.ahead
    | none => false

/-! ### Tombstones and holds that travel with a key -/

/-- Tombstones of a key that exists again with a higher version are dropped, and their units freed (R295). -/
def Swath.dropTombs (s : Swath) (space : Nat) (key : List Byte) (ver : Nat) : Swath :=
  let gone (t : Tomb) : Bool := sameTomb space key t && decide (t.version < ver)
  { s with tombs := s.tombs.filter fun t => !gone t }.freeMapUnits ((s.tombs.filter gone).flatMap Tomb.units)

/-- The hold ring keeps its last 1,048,576 entries (R611). -/
def Swath.ringPush (s : Swath) (e : HoldEnt) : Swath :=
  let l := s.holdRing ++ [e]
  { s with holdRing := l.drop (l.length - 1048576) }

/-- The hold-ring entry of a key's version. -/
def Swath.ringEntry (s : Swath) (k : KeyEnt) : Option HoldEnt :=
  s.holdRing.find? fun e => e.space == k.space && e.hash == k.hash && e.version == k.version

/-- The hold-ring entry of a key goes with its copy, so that an activation holds it there too (R235, R611). -/
def Swath.ringCopy (s from_ : Swath) (k : KeyEnt) : Swath :=
  match from_.ringEntry k, s.ringEntry k with
  | some e, none => s.ringPush e
  | _, _ => s

/-! ### A key's value moves to another swath (R269, R272, R328) -/

/-- Extents laid back to back from a location, their seals unchanged. -/
def laidFrom (loc : Nat) : Nat → List Extent → List Extent
  | _, [] => []
  | at_, e :: t => { e with loc := loc, skip := at_ } :: laidFrom loc (at_ + e.sheaves) t

/-- Swath m takes a key from swath n: the sealed sheaves with their seal nonces unchanged at places of its own,
under a new record (R328), with its space reserved as a write's (R272). Sheaves that were LOST stay LOST (`gone`), sheaves known to
fail their tag stay so (the latter moves without opening; DESIGN CHOICE for LOST ones, log entry 94). None while the
index, the ring or the counter has no room. -/
def Dev.copyTo (d : Dev) (n m : Fin 16) (k : KeyEnt) (ahead : Bool) (gone : List Nat) (al : Alloc) : Option Dev :=
  let old := (d.sw m).find k.space k.key
  match (d.sw m).spotFor old k.hash with
  | none => none
  | some (s, spot) =>
    match (d.setSw m s).takeCount m with
    | (_, none) => none
    | (d1, some rec) =>
      let k' := { k.atSpot spot with
        ahead := ahead, loc := al.recLoc % 2 ^ 35, extents := laidFrom (al.extLoc % 2 ^ 35) 0 k.extents,
        recSeal := rec, recKey := d.dataKey k.space, packed := false, drained := false, recBad := false,
        gone := gone }
      let (ol, op) := (old.map KeyEnt.charge).getD (0, 0)
      let nl := k.value.length
      let d2 := d1.updDisp fun x => { x with
        lfree := putD m.val 0 (lookD m.val 0 x.lfree + ol - nl) x.lfree,
        pfree := addInt m.val ((op : Int) - physOf nl) x.pfree,
        kfree := if old.isNone then subAt m.val 1 x.kfree else x.kfree }
      let d3 := (d2.bump (Base.sw m) F.SW_CIP_SEAL_COUNT).updSw m fun s =>
        ((s.enter 1 0 old k' k'.units none []).dropTombs k.space k.key k.version).ringCopy (d.sw n) k
      let room := decide (nl ≤ lookD m.val 0 d.disp.lfree + ol) && decide ((physOf nl : Int) ≤ d.pfreeOf m + op) &&
        (old.isSome || decide (0 < lookD m.val 0 d.disp.kfree))
      if !room || !(d3.sw m).ringFits then none
      else
        let d4 := match old with
          | some o => d3.vcFreeOld m o
          | none => d3
        some ((d4.condCheck d m 10).lineReadBack m al.line.val)

/-! ### Repairs and losses (R195, R333) -/

/-- Places of the swath's own for a copied key. -/
def Swath.freshPlace (s : Swath) (k : KeyEnt) : Alloc :=
  let sheaves := (k.extents.map (·.sheaves)).sum
  let loc := s.freshLoc (2 + ceilDiv (sheaves * 4112) 16384)
  { recLoc := loc, extLoc := loc + 32, line := 0 }

/-- Extents of a copy in which sheaf i is another copy's. -/
def takeSheaf (from_ : List Extent) (xs : List Extent) (i : Nat) : List Extent :=
  match extentOf from_ i with
  | some e => insertExtent { e with skip := e.skip + (i - e.first), first := i, sheaves := 1 } (cutExtents i (i + 1) xs)
  | none => xs

/-- A copy with the sheaves it lacks taken from the other one; all of them where its record is lost, or where the
record would list too many extents. -/
def Swath.mended (s : Swath) (k x : KeyEnt) : KeyEnt :=
  let bad := s.badOf k
  let xs := bad.foldl (takeSheaf x.extents) k.extents
  if s.recLost k ∨ 220 < xs.length then
    { x with held := k.held, retain := if s.recLost k then x.retain else k.retain }
  else { k with extents := xs, badSheaves := bad.filter x.badSheaves.contains, recBad := false }

/-- A copy is restored from the other: an event, and no deferred error (R195). Its HELD flag, its stamp where its
record can be read, and the sheaves that are good stay as they are. It waits for the next reader when the swath
has no room now. -/
def Dev.repaired (d : Dev) (n : Fin 16) (k : KeyEnt) (sheaf : Nat) : Dev :=
  match d.otherCopy n k with
  | none => d
  | some (m, x) =>
    let y := (d.sw n).mended k x
    let gone := if y.extents = x.extents then (d.sw m).lostSheaves x else []
    match d.copyTo m n y k.ahead gone ((d.sw n).freshPlace y) with
    | none => d
    | some d => d.reportSw n 0x0402 1 sheaf k.hash.toNat

/-- A value an acknowledged write stored is MEDIA_LOST: repaired from the other copy, or entered as a
deferred error (R195). -/
def Dev.valueLost (d : Dev) (n : Fin 16) (k : KeyEnt) (sheaf : Nat) : Dev :=
  if (d.otherCopy n k).isSome then d.repaired n k sheaf
  else d.deferError k.tag St.mediaLost k.seq k.hash k.space 0 k.sid

/-- A key's record is read to confirm a match: from media, where the value cache does not hold it, and opened
(R254). -/
def Dev.readRecord (d : Dev) (n : Fin 16) (k : KeyEnt) : Dev :=
  let b := Base.sw n
  let d := if k.recCells.all (d.sw n).vcHas then d else d.bump b F.SW_IDX_VERIFY_COUNT
  d.bump b F.SW_CIP_OPEN_COUNT

/-- The swath opens the key's record: counted, and a failing tag is handled (R254, R332, R335). The tag verifies
only under the data key it was sealed with. -/
def Dev.openRecord (d : Dev) (n : Fin 16) (k : KeyEnt) (ok : Bool) : Dev :=
  let d := d.readRecord n k
  if ok && !k.recBad && d.recOpens k then d
  else
    let other := (d.otherCopy n k).isSome
    let d := d.tagFailed n k.space k.hash 0xFFFFFFFF true false other
    let d' := d.updSw n fun s => s.setKey { k with recBad := true }
    if other then d'.repaired n { k with recBad := true } 0
    else if k.recBad then d
    else d'.valueLost n { k with recBad := true } 0

end Sys2Proof.Machine
end

