-- ==== Sys2Proof/Machine/Dram.lean ====
section
/-!
DEFINITION. The swath's DRAM channel (chapter 10): its code, its regions, the beats that hold more than their owners
put there, reads of a granule, and the logs of what they find.
-/
namespace Sys2Proof.Machine

/-! ### RS(10,8) over GF(2^8) (R341, R342, R351) -/

/-- Multiplication by α = 0x02 modulo x^8 + x^4 + x^3 + x^2 + 1. -/
def gfTwo (x : Byte) : Byte := if x.getLsbD 7 then (x <<< 1) ^^^ 0x1D#8 else x <<< 1

/-- Multiplication by α^i. -/
def gfAlpha : Nat → Byte → Byte
  | 0, x => x
  | i + 1, x => gfTwo (gfAlpha i x)

/-- S0 of the ten bytes of a beat. -/
def syndrome0 (l : List Byte) : Byte := l.foldl (· ^^^ ·) 0

/-- S1 of the bytes from position i on. -/
def syndrome1 : Nat → List Byte → Byte
  | _, [] => 0
  | i, b :: t => gfAlpha i b ^^^ syndrome1 (i + 1) t

/-- The two check bytes that bring both syndromes of eight data bytes to 0 (R341): b9 is (B + A α^8) ÷ α^33, where
A and B are the syndromes of the data and α^8 + α^9 = α^33. -/
def checkBytes (data : List Byte) : List Byte :=
  let a := syndrome0 data
  let b9 := gfAlpha 222 (syndrome1 0 data ^^^ gfAlpha 8 a)
  [a ^^^ b9, b9]

/-- The ten bytes of a beat that carries the data given. -/
def beatOf (data : List Byte) : List Byte := data ++ checkBytes data

/-- A poisoned beat: its check bytes inverted (R345). -/
def poisonBeat (data : List Byte) : List Byte := data ++ (checkBytes data).map fun b => ~~~ b

/-- How a beat decodes. -/
inductive BeatIs where
  | good | corrected (dev : Nat) | bad
  deriving DecidableEq, Repr

/-- Decoding with no position marked (R342) or with position m marked (R351). -/
def decodeBeat (mark : Option Nat) (l : List Byte) : BeatIs :=
  let s0 := syndrome0 l
  let s1 := syndrome1 0 l
  if s0 = 0 ∧ s1 = 0 then .good
  else
    match mark with
    | some m => if s1 = gfAlpha m s0 then .corrected m else .bad
    | none =>
      match (List.range 10).find? fun j => s0 != 0 && s1 == gfAlpha j s0 with
      | some j => .corrected j
      | none => .bad

/-- The eight data bytes that a read passes on: a corrected byte is its XOR with S0 (R342, R346). -/
def beatData (mark : Option Nat) (l : List Byte) : List Byte :=
  match decodeBeat mark l with
  | .corrected j => (l.set j (l.getD j 0 ^^^ syndrome0 l)).take 8
  | _ => l.take 8

/-! ### The channel's regions (R250, R362, R365) -/

/-- First granules of the regions of Table 7-3 after the first, from 0 in the table's order (DEDUCED, log entry
77), of the checker test area and of the spare pages. -/
def regionStarts : List Nat :=
  [0x2000000, 0xA000000, 0xB000000, 0xF000000, 0xF800000, 0xF880000, 0xFFFC000, 0xFFFE000]

/-- The region of a granule: the rows of Table 7-3 from 0, 7 the checker test area, 8 the spare pages. -/
def regionOf (g : Nat) : Nat := (regionStarts.filter fun a => decide (a ≤ g)).length

/-- The region a place of the channel names. -/
def atRegion : DramAt → Nat
  | .pageMap => 0 | .indexMain => 1 | .indexOverflow => 2 | .valueCache _ => 3 | .retention .. => 4
  | .buffer .. => 5 | .working => 6 | .testArea => 7 | .spare _ => 8

/-- What is said to lie at a granule can lie there: its region, its buffer unit and quarter, and for a spare page
the region of the page it serves. -/
def Swath.liesAt (s : Swath) (g : Nat) (x : DramAt) : Bool :=
  atRegion x == regionOf g &&
    match x with
    | .buffer u q => (g - 0xF800000) / 512 == u && (g - 0xF800000) % 512 / 128 == q.val
    | .spare y =>
      (match s.remap[(g - 0xFFFE000) / 32]? with
       | some p => atRegion y == regionOf (p * 32 + g % 32)
       | none => true)
    | _ => true

/-- A beat of the channel by its granule and number. -/
def beatNo (g beat : Nat) : Nat := g * 16 + beat

/-- Where an access to a granule goes: a granule of a retired page lies in the spare page of its remap entry
(R362). -/
def Swath.servedBy (s : Swath) (g : Nat) : Nat :=
  match s.remap.idxOf? (g / 32) with
  | some k => 0xFFFE000 + k * 32 + g % 32
  | none => g

/-- The ten bytes of a beat. One that is not listed stands as the fill left it, data and check bytes 0x00 (R359): what
the regions hold beside is state of its own, and a codeword adds nothing to the syndromes of an error (R341; DESIGN
CHOICE, log entry 77). -/
def Swath.beatAt (s : Swath) (g beat : Nat) : List Byte :=
  (look (beatNo (s.servedBy g) beat) s.dram).getD (zeros 10)

def Swath.setBeat (s : Swath) (g beat : Nat) (l : List Byte) : Swath :=
  { s with dram := put (beatNo (s.servedBy g) beat) l s.dram }

/-- Bits of a stored beat have flipped. -/
def Swath.upset (s : Swath) (g beat : Nat) (err : List Byte) : Swath :=
  if err.all (· == 0) then s
  else s.setBeat g beat (xorBytes (s.beatAt g beat) ((padTo 10 err).take 10))

/-- Addresses of granules from a to z with listed beats, ascending. A retired page's lie in its spare page. -/
def Swath.knownGranules (s : Swath) (a z : Nat) : List Nat :=
  let phys := (s.dram.map fun e => e.1 / 16).eraseDups
  let back := phys.filterMap fun p =>
    if 0xFFFE000 ≤ p then (s.remap[(p - 0xFFFE000) / 32]?).map fun q => q * 32 + p % 32 else none
  (((phys.filter fun g => !s.remap.contains (g / 32)) ++ back).filter fun g => decide (a ≤ g ∧ g ≤ z)).foldl
    (fun l g => insertNat g l) []

/-- Granules are written over whole: errors in them are gone, and one that was uncorrectable has been rewritten (R345,
R361). -/
def Swath.refilled (s : Swath) (p : Nat → Bool) : Swath :=
  let gs := ((s.knownGranules 0 (2 ^ 28)).filter p).map s.servedBy
  { s with
    dram := s.dram.filter fun e => !gs.contains (e.1 / 16),
    ueSeen := s.ueSeen.filter fun g => !p g,
    ueOver := (s.ueSeen.filter p).foldl (fun l g => insertNat g l) s.ueOver }

/-- Granules of a protected-buffer unit. -/
def inBuffer (u g : Nat) : Bool := regionOf g == 5 && (g - 0xF800000) / 512 == u

/-- Granules of a region that were found uncorrectable: their contents are dropped, and what is placed in the region
next takes their place first (DESIGN CHOICE, log entry 105). -/
def Swath.freedIn (s : Swath) (region g : Nat) : Bool := regionOf g == region && s.ueSeen.contains g

/-- The marked position. -/
def Dev.marked (d : Dev) (n : Fin 16) : Option Nat :=
  if d.flag (Base.sw n) F.SW_MEM_STAT_MARKED then some (d.fld (Base.sw n) F.SW_MEM_STAT_MARK_DEV) else none

/-- The bytes that reach the decoder: KILL_DEV is replaced with 0x00 while KILL_EN is 1 (R366). -/
def Dev.channelRead (d : Dev) (n : Fin 16) (l : List Byte) : List Byte :=
  let b := Base.sw n
  let l := padTo 10 l
  if d.flag b F.SW_MEM_CHK_CTRL_KILL_EN then l.set (d.fld b F.SW_MEM_CHK_CTRL_KILL_DEV) 0 else l

/-! ### Logs (R347, R348, R350, R353) -/

/-- Number of a master in SW_MEM_LOG_W1.SOURCE. -/
def srcPatrol : Nat := 1

/-- Log a corrected (dev below 10) or uncorrectable (dev 15) beat. -/
def Swath.logBeat (s : Swath) (granule dev source : Nat) : Swath :=
  match s.log.find? fun e => e.2.granule == granule with
  | some (i, e) =>
    let again := source == srcPatrol && (e.seen != s.patrolNo + 1)
    { s with log := put i { e with
        count := satAdd e.count 1 255,
        passes := if again then satAdd e.passes 1 255 else e.passes,
        seen := if again then s.patrolNo + 1 else e.seen } s.log }
  | none =>
    let byPatrol := source == srcPatrol
    let e : LogEnt := { granule := granule, dev := dev, count := 1, passes := b2n byPatrol, source := source,
                        seen := if byPatrol then s.patrolNo + 1 else 0 }
    { s with log := put s.logAt e s.log, logAt := (s.logAt + 1) % 256 }

/-- Distinct granules the log holds corrected at a position. -/
def Swath.logAtDev (s : Swath) (dev : Nat) : Nat := (s.log.filter fun e => e.2.dev == dev).length

/-- Mark a position: interrupt, event record and the steward journal's copy (R350). -/
def Dev.markDev (d : Dev) (n : Fin 16) (dev : Nat) : Dev :=
  let b := Base.sw n
  let d := (d.setFld b F.SW_MEM_STAT_MARKED 1).setFld b F.SW_MEM_STAT_MARK_DEV dev
  (d.raise (privSw n 1)).reportSw n 0x0701 2 dev 0

/-- The log asks for a mark at a position. -/
def Dev.markCheck (d : Dev) (n : Fin 16) (dev : Nat) : Dev :=
  let b := Base.sw n
  if d.flag b F.SW_MEM_CTRL_MARK_EN && (d.marked n).isNone &&
      decide (d.fld b F.SW_MEM_CTRL_MARK_THR ≤ (d.sw n).logAtDev dev) then d.markDev n dev
  else d

/-- The count-and-log view of a corrected beat (R353). -/
def Dev.countAndLog (d : Dev) (n : Fin 16) (granule dev : Nat) : Dev :=
  let b := Base.sw n
  if d.fld b F.SW_MEM_CTRL_MODE = 0 then d
  else
    let d := d.setFld b F.SW_MEM_CL_COUNT_COUNT (satAdd (d.fld b F.SW_MEM_CL_COUNT_COUNT) 1 0xFFFF)
    if (d.sw n).cl.any fun e => e.1 == granule then d
    else if (d.sw n).cl.length < 32 then
      (d.updSw n fun s => { s with cl := s.cl ++ [(granule, dev)] }).raise (privSw n 3)
    else d.setFld b F.SW_MEM_CL_COUNT_OVF 1

/-- A corrected beat. -/
def Dev.corrected (d : Dev) (n : Fin 16) (granule dev source : Nat) : Dev :=
  let d := d.updSw n fun s => s.logBeat granule dev source
  let d := d.bump (Base.sw n) (F.SW_MEM_DEV_COUNT.at dev)
  (d.countAndLog n granule dev).markCheck n dev

/-- REGION of SW_MEM_UE_INFO for a granule: 7 a spare page, 8 the checker test area. -/
def ueRegion (g : Nat) : Nat :=
  match regionOf g with
  | 7 => 8
  | 8 => 7
  | r => r

/-- An uncorrectable beat is logged and, unless an error is already latched, latched (R347, R356). -/
def Dev.latchUe (d : Dev) (n : Fin 16) (granule beat master source : Nat) : Dev :=
  let b := Base.sw n
  let d := d.updSw n fun s => { s.logBeat granule 15 source with ueSeen := insertNat granule s.ueSeen }
  if d.flag b F.SW_MEM_UE_INFO_VALID then d
  else
    let d := (d.setFld b F.SW_MEM_UE_ADDR_GRANULE granule).setFld b F.SW_MEM_UE_ADDR_BEAT beat
    let d := (d.setFld b F.SW_MEM_UE_INFO_MASTER master).setFld b F.SW_MEM_UE_INFO_REGION (ueRegion granule)
    d.setCond b F.SW_MEM_UE_INFO_VALID 1 (privSw n 0)

/-! ### Reads of a granule (R340, R342, R352) -/

/-- How the sixteen beats of a granule decode, all under the mark in force as the read begins. -/
def Dev.granuleRead (d : Dev) (n : Fin 16) (g : Nat) : List (Nat × BeatIs) :=
  let m := d.marked n
  (List.range 16).map fun b => (b, decodeBeat m (d.channelRead n ((d.sw n).beatAt g b)))

/-- A read finds a beat: corrected and logged, or logged and latched for its master. -/
def Dev.beatFound (d : Dev) (n : Fin 16) (g master source : Nat) (f : Nat × BeatIs) : Dev :=
  match f.2 with
  | .good => d
  | .corrected j => d.corrected n g j source
  | .bad => d.latchUe n g f.1 master source

/-- A granule is read by a master. -/
def Dev.readGranule (d : Dev) (n : Fin 16) (g master source : Nat) : Dev :=
  (d.granuleRead n g).foldl (fun d f => d.beatFound n g master source f) d

/-- A beat of the granule is uncorrectable. -/
def Dev.granuleBad (d : Dev) (n : Fin 16) (g : Nat) : Bool := (d.granuleRead n g).any fun f => f.2 == .bad

/-- A beat that a master has found uncorrectable is so as stored; one whose error the model does not hold is poisoned
(DESIGN CHOICE, log entry 77: which bits have failed is not told). -/
def Dev.spoil (d : Dev) (n : Fin 16) (g beat : Nat) : Dev :=
  if decodeBeat (d.marked n) (d.channelRead n ((d.sw n).beatAt g beat)) = .bad then d
  else d.updSw n fun s => s.setBeat g beat (poisonBeat ((s.beatAt g beat).take 8))

/-! ### Contents placed anew (R345, R361) -/

/-- What is placed in a region takes the place of dropped contents first. -/
def Dev.refill (d : Dev) (n : Fin 16) (region : Nat) : Dev := d.updSw n fun s => s.refilled (s.freedIn region)

/-- Place units of the logical space in the value cache. -/
def Dev.vcPlace (d : Dev) (n : Fin 16) (us : List Nat) : Dev :=
  if !d.flag (Base.sw n) F.SW_VC_CTRL_EN then d
  else
    let d := if us.all (d.sw n).vcHas then d else d.refill n 3
    d.updSw n fun s => { s with vc := us.foldl vcAdd s.vc }

end Sys2Proof.Machine
end

