-- ==== Sys2Proof/Machine/Admission.lean ====
section
/-!
DEFINITION. The dispatcher and the hazard table (chapter "Ordering, completion and durability"):
admission, the hedgerow, chains, buffer units, the front cache's fills, the deferred-error log and the
latency histograms.
-/
namespace Sys2Proof.Machine

/-! ### What a data request asks for -/

/-- The rule's result; defaults stand in only while none is there. -/
def Cmd.theRule (c : Cmd) : KeyRule :=
  c.rule.getD { retainS := 0, prio := 0, mirror := false, holdSel := 0, holdMin := 0, rule := 0x3FF }

/-- The key is paired (R233). -/
def Dev.isPaired (d : Dev) (c : Cmd) : Bool :=
  match look c.space d.boot.set_.spaces with
  | some x => x.pairing == 1 || (x.pairing == 2 && c.theRule.mirror)
  | none => false

/-- Logical and physical charge at admission (Table 5-2). -/
def Cmd.charges (c : Cmd) : Nat × Nat :=
  let b := c.block
  if c.op = Op.put ∨ c.op = Op.casPut then (b.len, physOf b.len)
  else if c.op = Op.putStream then (if b.offset = 0 then (b.aux, physOf b.aux) else (0, 0))
  else if c.op = Op.writeRange ∨ c.op = Op.append then
    (b.len, ceilDiv ((sheavesOf b.len + 1) * 4112) 512 * 512)
  else (0, 0)

/-- Key charge of Table 5-2. -/
def Cmd.keyCharge (c : Cmd) : Bool :=
  c.op == Op.put || c.op == Op.casPut || (c.op == Op.putStream && c.block.offset == 0) ||
    (c.op == Op.append && c.block.create)

/-! ### Admission (R171, R173 to R178, R248, R249) -/

/-- A SANITIZE or FORMAT holds the key space, from its commit until the job is done (R171). -/
def Dev.eraseHolds (d : Dev) (space : Nat) : Bool :=
  (d.adm.jobs.any fun e =>
    (e.2.st == 1 || e.2.st == 4) &&
      (e.1 / 256 == 1 || e.1 / 256 == 7 || (e.1 / 256 == 2 && e.1 % 256 == space))) ||
  d.disp.cmds.any fun e => e.2.st == .running &&
    (e.2.op == Op.sanitize || (e.2.op == Op.format && (fieldBe e.2.payload 0 1 == 1 || e.2.space == space)))

/-- A clean shutdown has begun (R520, R521). -/
def Dev.shutting (d : Dev) : Bool :=
  d.flag Base.glb F.GLB_START_STAT_SHUTTING || d.flag Base.glb F.GLB_START_STAT_SHUT_DONE

/-- A slot whose paired keys alone have left HOME: PARTIAL, or a PARTIAL one that moves on (R248, R275, R276). -/
def Slot.pairedOnly (x : Slot) : Bool := x.st == 4 || x.part

/-- The owners of a command (R248, R273, R275); none is SWATH_OFFLINE. -/
def Dev.ownersOf (d : Dev) (c : Cmd) : Option (List (Fin 16)) :=
  let s := d.slot (hashSlot c.hash)
  if s.st = 2 then none
  else if d.isPaired c then
    match [s.owner, s.partner].filter d.online with
    | [] => none
    | l => some l
  else
    let o := if s.pairedOnly then s.home else s.owner
    if d.online o then some [o] else none

/-- The swaths a LIST reads a slot from, or none where one it needs is offline, or while the slot is in CUTOVER
(R166, R273). -/
def Dev.listSources (d : Dev) (space s : Nat) : Option (List (Fin 16)) :=
  let x := d.slot s
  let pairing := match look space d.boot.set_.spaces with
    | some p => p.pairing
    | none => 0
  if x.st = 2 then none
  else if pairing = 1 then
    if d.online x.owner then some [x.owner] else if d.online x.partner then some [x.partner] else none
  else
    let l := if x.pairedOnly ∧ x.home ≠ x.owner then [x.owner, x.home] else [x.owner]
    if l.all d.online then some l else none

/-- The swaths of the slots from s on that a LIST may reach, as far as it can read them. -/
def Dev.listOwners (d : Dev) (space : Nat) : Nat → Nat → List (Fin 16) → List (Fin 16)
  | 0, _, l => l
  | f + 1, s, l =>
    match d.listSources space s with
    | none => l
    | some ns => d.listOwners space f (s + 1) (l ++ ns.filter fun n => !l.contains n)

/-- First slot of a LIST: the top byte of its cursor's hash. -/
def Cmd.listFrom (c : Cmd) : Nat := fieldBe c.data 8 1

/-- A PUT_STREAM part that meets a limit of R153. -/
def streamBusy (x : Ctx) (c : Cmd) : Bool :=
  c.op == Op.putStream && c.block.offset == 0 &&
    (decide (64 ≤ x.streams.length) || !(streamsOf x c.space c.key).isEmpty)

/-- A part that matches no open stream or breaks R152. -/
def streamBad (x : Ctx) (c : Cmd) : Bool :=
  let b := c.block
  c.op == Op.putStream &&
    (decide (b.aux < b.offset + b.len) || (c.midPart && b.len % 4096 != 0) ||
      (b.offset != 0 &&
        (match streamsOf x c.space c.key with
         | [] => true
         | s :: _ => s.sent != b.offset || s.whole != b.aux || s.stamp != b.stamp)))

/-- A tag, and a queue slot on each swath, are free (R174, R176). -/
def Dev.slotsFree (d : Dev) (ns : List (Fin 16)) : Bool :=
  decide (d.disp.tags < 65536) && ns.all fun n => decide (lookD n.val 0 d.disp.slots < 4096)

/-- Invalidate the key's front-cache entry and count it (R73, R75). -/
def Dev.fcInvalidate (d : Dev) (c : Cmd) : Dev :=
  d.updDisp fun x => { x with
    inv := x.inv + 1, invTab := put (c.hash.toNat % 4096) (x.inv + 1) x.invTab,
    fc := x.fc.filter fun e => !(e.space == c.space && e.key == c.key) }

/-- Swaths on which a key can be reserved. -/
def Dev.keysFree (d : Dev) (c : Cmd) (ns : List (Fin 16)) : List (Fin 16) :=
  if c.keyCharge then ns.filter fun n => decide (0 < lookD n.val 0 d.disp.kfree) else []

/-- Take what a write is charged on every owner (R177). -/
def Dev.charge (d : Dev) (ns : List (Fin 16)) (l p : Nat) (ks : List (Fin 16)) : Dev :=
  d.updDisp fun x => { x with
    lfree := ns.foldl (fun t n => subAt n.val l t) x.lfree,
    pfree := ns.foldl (fun t n => addInt n.val (-(p : Int)) t) x.pfree,
    kfree := ks.foldl (fun t n => subAt n.val 1 t) x.kfree }

/-- A stream opens, or takes a further part (R152, R154). -/
def Dev.streamPart (d : Dev) (cid : Nat) (c : Cmd) (ns : List (Fin 16)) (l p : Nat)
    (ks : List (Fin 16)) : Dev :=
  let b := c.block
  d.updCtx c.sid fun x =>
    if b.offset = 0 then
      { x with streams := x.streams ++
        [{ space := c.space, key := c.key, sent := b.len, whole := b.aux, stamp := b.stamp,
           seq := c.seq, data := [], ver := d.disp.admNum, owners := ns, chargeL := l, chargeP := p,
           keyHeld := ks, flows := [], parts := [cid], seals := [] }] }
    else
      { x with streams := x.streams.map fun s =>
        if s.space == c.space && s.key == c.key then
          { s with sent := s.sent + b.len, seq := c.seq, parts := s.parts ++ [cid] }
        else s }

/-- Reserve, number and pass a command to its owners. A part that breaks R152 joins no stream and is judged at
its swath, after the tests that go before RANGE_INVALID (R132). -/
def Dev.admitTo (d : Dev) (cid : Nat) (c : Cmd) (ns : List (Fin 16)) (badPart : Bool) : Dev :=
  let w := isWrite c.op
  let stream := c.op == Op.putStream && !badPart
  let (l, p) := c.charges
  let ks := if w then d.keysFree c ns else []
  let num := d.disp.admNum
  let d := if w then d.charge ns l p ks else d
  let d := if stream then d.streamPart cid c ns l p ks else d
  let own := w && !stream
  let d := d.updCmd cid fun x => { x with
    st := .reserved, owners := ns, hasTag := true, slotsOn := ns,
    ver := if w then num else 0,
    chargeL := if own then l else 0, chargeP := if own then p else 0,
    keyHeld := if own then ks else [], chargedOn := if own then ns else [],
    admStamp := d.stamp, admClock := d.io.hold, invNo := d.disp.inv }
  let d := d.updDisp fun x => { x with
    tags := x.tags + 1, slots := ns.foldl (fun t n => addAt n.val 1 t) x.slots,
    admNum := if w then x.admNum + 1 else x.admNum,
    wait := x.wait.filter (· != cid) }
  let d := if isChange c.op then d.fcInvalidate c else d
  d.updDisp fun x => { x with inbound := x.inbound ++ ns.map fun n => (n, cid) }

/-- A GET the front cache could have held (Table 2-21). -/
def Dev.fcEligible (d : Dev) (c : Cmd) : Bool :=
  c.op == Op.get && c.oneFrame && d.flag Base.dsp F.DSP_FC_CTRL_FC_EN && decide (c.key.length ≤ 128) &&
    bit (d.fld Base.dsp (F.DSP_FC_SPACE_EN.at (c.space / 32))) (c.space % 32)

/-- A LIST takes its tag and a slot on each swath it may read (R174), and runs at once: its order point is the
snapshot of each slot as it is reached (Table 5-3). -/
def Dev.admitList (d : Dev) (cid : Nat) (c : Cmd) : Dev :=
  let ns := d.listOwners c.space (256 - c.listFrom) c.listFrom []
  if !d.slotsFree ns then d.updCmd cid fun y => { y with st := .waitRes }
  else
    (d.updCmd cid fun x => { x with st := .running, owners := ns, hasTag := true, slotsOn := ns }).updDisp fun x =>
      { x with tags := x.tags + 1, slots := ns.foldl (fun t n => addAt n.val 1 t) x.slots,
               wait := x.wait.filter (· != cid) }

/-- The admission of one command (R132, R176). -/
def Dev.admitOne (d : Dev) (cid : Nat) (c : Cmd) : Dev :=
  match d.ctx c.sid with
  | none => d.abortCmd cid
  | some x =>
    if d.eraseHolds c.space || d.shutting || streamBusy x c then d.refuse cid St.busy []
    else if c.op = Op.list then d.admitList cid c
    else
      match d.ownersOf c with
      | none =>
        if decide (d.disp.tags < 65536) then d.refuse cid St.swathOffline []
        else d.updCmd cid fun y => { y with st := .waitRes }
      | some ns =>
        if !d.slotsFree ns then d.updCmd cid fun y => { y with st := .waitRes }
        else if (isWrite c.op || c.op == Op.discardSecure) && ns.any (fun n => (d.sw n).fallow) then
          d.refuse cid St.mediaWorn []
        else
          let (l, p) := c.charges
          if isWrite c.op && ns.any (fun n => decide (lookD n.val 0 d.disp.lfree < l) ||
              decide (d.pfreeOf n < p)) then
            d.refuse cid St.noSpace []
          else
            let d := if d.fcEligible c then d.bump Base.dsp F.DSP_FC_MISSES_COUNT else d
            d.admitTo cid c ns (streamBad x c)

/-- DISPATCH_ADMIT: the first command in the dispatcher's order, once its pattern result is there; a LIST has no
key to match. -/
def doDispatchAdmit (d : Dev) : Dev :=
  if d.pw.pfActive || d.resetting .dispatcher then d
  else
    match d.disp.wait with
    | [] => d
    | cid :: _ =>
      match d.cmd cid with
      | none => d.updDisp fun x => { x with wait := x.wait.filter (· != cid) }
      | some c => if c.rule.isNone ∧ c.op ≠ Op.list then d else d.admitOne cid c

/-- A command has waited WAIT_US microseconds in WAIT_RES (R176). -/
def doWaitResTimeout (cid : Nat) (d : Dev) : Dev :=
  match d.cmd cid with
  | none => d
  | some c => if c.st == .waitRes then d.refuse cid St.busy [] else d

/-! ### Latency (R605) -/

/-- The bin of a latency in nanoseconds. -/
def latBin (ns : Nat) : Nat := if ns < 64 then 0 else if 2 ^ 36 ≤ ns then 31 else Nat.log2 ns - 5

/-- Count a command that ends with OK: in its class, and at the swath named as a read or a write. -/
def Dev.latency (d : Dev) (c : Cmd) (at_ : Option (Fin 16)) : Dev :=
  if !d.flag Base.dsp F.DSP_LAT_CTRL_EN then d
  else
    let b := latBin (d.ptpNow - c.t0)
    let d := d.bump Base.dsp (F.DSP_LAT_CLS_BIN.at (32 * c.via.cls + b))
    match at_ with
    | none => d
    | some n =>
      let f := if isRead c.op || c.op == Op.list then F.DSP_LAT_SWR_BIN else F.DSP_LAT_SWW_BIN
      d.bump Base.dsp (f.at (64 * n.val + b))

/-! ### Chains (R175, R180, R181, R234) -/

/-- HAZARD_ARRIVE: the first command on the hedgerow for a swath joins its chain. A part of a stream
other than the last takes no place in the key's order. -/
def doHazardArrive (n : Fin 16) (d : Dev) : Dev :=
  if !d.swRuns n then d
  else
    match d.disp.inbound.find? fun e => e.1 == n with
    | none => d
    | some (_, cid) =>
      let d := d.updDisp fun x => { x with inbound := x.inbound.erase (n, cid) }
      match d.cmd cid with
      | none => d
      | some c =>
        if c.midPart then
          d.updCmd cid fun x => { x with
            st := .running, arrived := x.arrived ++ [n], eligible := x.eligible ++ [n] }
        else
          let d := d.updCmd cid fun x => { x with
            st := if x.st == .running then .running else .chained, arrived := x.arrived ++ [n] }
          d.updSw n fun s => { s with
            haz := s.haz ++ [{ item := .cmd cid, space := c.space, hash := c.hash }] }

/-- The command at a place of the hazard table that could start now (R181). -/
def Dev.startsAt (d : Dev) (n : Fin 16) (h : Haz) : Option (Nat × Cmd) :=
  match h.item with
  | .hold _ _ _ => none
  | .cmd e =>
    (d.cmd e).bind fun q =>
      if !q.eligible.contains n && d.chainOk n (.cmd e) h.space h.hash (isRead q.op) then some (e, q) else none

/-- The first command of each chain among those that could start (R234: QPRIO never changes the order on a
chain). -/
def firstOfChain : List (Nat × Cmd) → List (Nat × Cmd)
  | [] => []
  | e :: t => e :: (firstOfChain t).filter fun x => !(x.2.space == e.2.space && x.2.hash == e.2.hash)

/-- Commands that could start at a swath now, in arrival order, one for each chain. -/
def Dev.startable (d : Dev) (n : Fin 16) : List (Nat × Cmd) := firstOfChain ((d.sw n).haz.filterMap (d.startsAt n))

/-- QPRIO with one step for a command that has waited 1 ms. -/
def Cmd.prio (c : Cmd) : Nat := min 3 (c.theRule.prio + c.age)

/-- The one that starts next: the highest QPRIO, the earliest among equals. -/
def firstByPrio : List (Nat × Cmd) → Option (Nat × Cmd)
  | [] => none
  | e :: t =>
    match firstByPrio t with
    | none => some e
    | some b => if e.2.prio < b.2.prio then some b else some e

/-- QPRIO_AGE: a command that can start has waited 1 ms. -/
def doQprioAge (n : Fin 16) (cid : Nat) (d : Dev) : Dev :=
  if (d.startable n).any fun e => e.1 == cid then d.updCmd cid fun x => { x with age := 1 } else d

/-! ### Order points passed, and the internal holds behind them (R235, R611) -/

/-- The order point of a command passes at a swath. -/
def Dev.markPassed (d : Dev) (n : Fin 16) (cid : Nat) (c : Cmd) : Dev :=
  let d := d.updCmd cid fun x => { x with passed := x.passed ++ [n], st := .ordered }
  let d := if c.op < 32 then d.bump (Base.sw n) (F.SW_OP_CNT_COUNT.at c.op) else d
  d.holdsAt n

/-! ### Snapshots (R182, R268) -/

/-- The view a read takes at one swath. -/
def Dev.snapOf (d : Dev) (n : Fin 16) (c : Cmd) : Snap :=
  match (d.sw n).matched c.space c.key c.hash with
  | none =>
    { version := 0, length := 0, value := [], held := false, paired := false, oneCopy := false,
      written := 0, retain := 0, swath := n, lost := [], recLoc := 0, extents := [], found := false, pins := [],
      ahead := (d.sw n).tombs.any fun t => t.space == c.space && t.key == c.key && t.lag,
      recBad := false, tried := none, recHit := false }
  | some k =>
    { version := k.version, length := k.value.length, value := k.value, held := k.held,
      paired := k.paired, oneCopy := k.paired && d.eitherAhead c.space c.key c.hash,
      written := k.written, retain := k.retain, swath := n, lost := (d.sw n).lostSheaves k,
      recLoc := k.loc, extents := k.extents, found := true, pins := (d.sw n).sbsOf k, ahead := k.ahead, recBad := (d.sw n).recLost k, tried := none,
      recHit := k.recCells.all (d.sw n).vcHas }

/-- Of two copies' snapshots, the one that serves: an AHEAD copy, otherwise OWNER's (R268). -/
def betterSnap (owner : Option (Fin 16)) (a : Option Snap) (b : Snap) : Snap :=
  match a with
  | none => b
  | some x =>
    if x.ahead then x else if b.ahead then b else if some b.swath == owner then b else x

/-- The range a read returns: its first byte and the byte after its last (R148). -/
def Cmd.range (c : Cmd) (length : Nat) : Nat × Nat :=
  if c.op = Op.getRange then
    let b := c.block
    (b.offset, if b.len = 0xFFFFFFFF then length else min length (b.offset + b.len))
  else (0, length)

/-- Sheaves from the one that holds byte a up to the byte before z. -/
def sheafSpan (a z : Nat) : Nat := if z ≤ a then 0 else (z - 1) / 4096 - a / 4096 + 1

/-- Sheaves a read opens; a HEAD opens none. -/
def Cmd.sheaves (c : Cmd) (length : Nat) : List Nat :=
  if c.op = Op.head then []
  else
    let (a, z) := c.range length
    (List.range (sheafSpan a z)).map (a / 4096 + ·)

/-- The 512-byte units a sheaf of a key lies in. -/
def sheafCells (xs : List Extent) (i : Nat) : List Nat :=
  match extentOf xs i with
  | some e => ({ e with skip := e.skip + (i - e.first), first := i, sheaves := 1 } : Extent).cells
  | none => []

/-- A read uses units of the value cache, and places those it misses there when the value is short enough and
NO_CACHE is 0 (R260, R261). -/
def Dev.cacheUse (d : Dev) (n : Fin 16) (c : Cmd) (length : Nat) (us : List Nat) : Dev :=
  let d := d.updSw n fun s => { s with
    vc := s.vc.map fun e => if us.contains e.unit then { e with used := true } else e }
  if us.all (d.sw n).vcHas || c.block.noCache ||
      decide (d.fld (Base.sw n) F.SW_VC_CTRL_FILL_MAX * 4096 < length) then d
  else d.vcPlace n us

/-- 512-byte units of the sheaves a read opens. -/
def Cmd.sheafUnits (c : Cmd) (s : Snap) : List Nat := (c.sheaves s.length).flatMap (sheafCells s.extents)

/-- The copy that serves a read counts it as served wholly from the value cache or not, and the sheaves it reads
are used there (R260, R268). -/
def Dev.cacheRead (d : Dev) (c : Cmd) (s : Snap) : Dev :=
  let us := c.sheafUnits s
  let hit := s.recHit && us.all (d.sw s.swath).vcHas
  let d := d.bump (Base.sw s.swath) (if hit then F.SW_VC_HITS_COUNT else F.SW_VC_MISSES_COUNT)
  d.cacheUse s.swath c s.length us

/-- Every owner has reported its snapshot: the read counts at the copy that serves. -/
def Dev.readChosen (d : Dev) (cid : Nat) : Dev :=
  match d.cmd cid with
  | none => d
  | some c =>
    match c.snap with
    | none => d
    | some s => if (c.owners.all c.passed.contains) && s.found && !s.recBad then d.cacheRead c s else d

/-- CHAIN_ELIGIBLE: the command that starts next becomes eligible (R181, R234). It opens the key's
record when the key is there (R254); a read takes its snapshot, its order point (R182). -/
def doChainEligible (n : Fin 16) (cid : Nat) (recOk : Bool) (d : Dev) : Dev :=
  if !d.swRuns n then d
  else
    match firstByPrio (d.startable n) with
    | none => d
    | some (e, c) =>
      if e ≠ cid then d
      else
        let d := d.updCmd cid fun x => { x with st := .running, eligible := x.eligible ++ [n] }
        let d :=
          if ((d.sw n).cands c.hash).any fun k => !sameKey c.space c.key k then
            d.bump (Base.sw n) F.SW_IDX_COLLIDE_COUNT
          else d
        let d := ((d.sw n).lookupBefore c.space c.key c.hash).foldl (fun d k => d.readRecord n k) d
        let hit := (((d.sw n).find c.space c.key).map fun k => k.recCells.all (d.sw n).vcHas).getD false
        let d :=
          match (d.sw n).matched c.space c.key c.hash with
          | some k => d.openRecord n k recOk
          | none => d
        if !isRead c.op then d
        else
          let snap := { d.snapOf n c with recHit := hit }
          let d :=
            match (d.sw n).find c.space c.key with
            | some k => if snap.recBad then d else d.cacheUse n c k.value.length k.recCells
            | none => d
          let owner := some (d.slot (hashSlot c.hash)).owner
          let was := ((c.snap.map (·.swath)).getD n)
          let d := d.updCmd cid fun x => { x with snap := some (betterSnap owner x.snap snap) }
          (((d.vcSweep n).vcSweep was).markPassed n cid c).readChosen cid

/-! ### Buffer units (R186, R188, R319, R325) -/

/-- The stream a part belongs to. -/
def Dev.streamOf (d : Dev) (c : Cmd) : Option Stream :=
  (d.ctx c.sid).bind fun x => (streamsOf x c.space c.key).head?

/-- The part belongs to no open stream: it broke R152 at its admission, or its stream has been abandoned. -/
def Dev.badPart (d : Dev) (cid : Nat) (c : Cmd) : Bool :=
  c.op == Op.putStream && c.passed.isEmpty && !((d.streamOf c).any fun s => s.parts.contains cid)

/-- Length of the value a write stores, as R188 takes it. -/
def Cmd.wholeLen (c : Cmd) : Nat := if c.op = Op.putStream then c.block.aux else c.len

/-- Units of the swath that are FREE among the N of R437. -/
def Dev.freeBuf (d : Dev) (n : Fin 16) : Nat :=
  d.pw.capUnits - ((d.sw n).units.filter fun u => decide (u.1 < d.pw.capUnits)).length

/-- A write that starts now at a swath streams (R188). -/
def Dev.startsFlow (d : Dev) (n : Fin 16) (c : Cmd) : Bool :=
  decide (d.fld (Base.sw n) F.SW_BUF_CTRL_STREAM_MIB * 1048576 < c.wholeLen) ||
    decide (d.freeBuf n < unitsFor c.wholeLen)

/-- COUNT values taken, the swaths at which the write streams, and the version its units carry: those of its
stream for a part. -/
def Dev.flowOf (d : Dev) (cid : Nat) (c : Cmd) : List (Fin 16 × Nat) × List (Fin 16) × Nat :=
  match (if d.badPart cid c then none else d.streamOf c), c.op == Op.putStream with
  | some s, true => (s.seals, s.flows, s.ver)
  | _, _ => (c.seals, c.flows, c.ver)

/-- The first unit of a write at a swath: it takes the write's COUNT value (R325), and whether the write streams
is settled (R188). -/
def Dev.startBuffer (d : Dev) (n : Fin 16) (cid : Nat) (c : Cmd) : Dev :=
  let (seals, flows, _) := d.flowOf cid c
  if seals.any fun e => e.1 == n then d
  else
    let flows := if d.startsFlow n c then flows ++ [n] else flows
    match d.takeCount n with
    | (d, none) => d
    | (d, some v) =>
      let seals := seals ++ [(n, v)]
      let d := d.updCmd cid fun x => { x with seals := seals, flows := flows }
      if d.badPart cid c then d
      else d.updCtx c.sid fun x => { x with
        streams := x.streams.map fun s =>
          if c.op == Op.putStream && s.space == c.space && s.key == c.key then { s with seals := seals, flows := flows }
          else s }

/-- BUFFER_UNIT_TAKE: a running write's waiting data takes a FREE unit among the N of R437, as soon as any of it
has come. A streaming write's full units, those of its stream's earlier parts among them, drain at once (R188). -/
def doBufferUnitTake (n : Fin 16) (cid unit : Nat) (d : Dev) : Dev :=
  match d.cmd cid with
  | none => d
  | some c =>
    let k := lookD n.val 0 c.taken
    let need := unitsFor c.len
    if !isWrite c.op || !d.swRuns n || !c.eligible.contains n || c.passed.contains n || decide (d.pw.capUnits ≤ unit) ||
        (look unit (d.sw n).units).isSome || decide (need ≤ k) ||
        !(c.gotAll || decide (k < unitsFor (d.received c))) then d
    else
      let d := d.startBuffer n cid c
      let (seals, flows, ver) := d.flowOf cid ((d.cmd cid).getD c)
      let mine (u : BufUnit) : Bool :=
        u.st == .filling && (u.cid == some cid ||
          (c.op == Op.putStream && u.cid.isNone && u.space == c.space && u.key == c.key && u.ver == ver))
      let d := d.updSw n fun s => { s with
        units := put unit { st := .filling, cid := some cid, space := c.space, key := c.key, ver := ver, early := true }
          (s.units.map fun u => (u.1, if flows.contains n && mine u.2 then { u.2 with st := .draining } else u.2)) }
      let d := d.updSw n fun s => s.refilled (inBuffer unit)
      let d := d.bumpBy (Base.sw n) F.SW_CIP_SEAL_COUNT (d.sealedFor c (k + 1) - d.sealedFor c k)
      let d := d.updCmd cid fun x => { x with
        seals := seals, units := x.units ++ [(n, unit)], taken := put n.val (k + 1) x.taken }
      d.drainCells cid

/-- All of a write's data is in the buffer at a swath. -/
def Cmd.buffered (c : Cmd) (n : Fin 16) : Bool :=
  c.gotAll && c.eligible.contains n && decide (unitsFor c.len ≤ lookD n.val 0 c.taken)

/-! ### Front-cache fills (R71, R75, R76) -/

/-- Cells an entry takes: header, key and value. -/
def FcEnt.cells (e : FcEnt) : Nat := 1 + ceilDiv e.key.length 64 + ceilDiv e.value.length 64

/-- Make room by the clock algorithm. -/
def fcMakeRoom (need : Nat) : Nat → List FcEnt → List FcEnt
  | 0, l => l
  | _ + 1, [] => []
  | f + 1, e :: t =>
    if ((e :: t).map FcEnt.cells).sum + need ≤ 393216 then e :: t
    else if e.used then fcMakeRoom need f (t ++ [{ e with used := false }])
    else fcMakeRoom need f t

/-- FC_FILL: the oldest fill offered is inserted, or dropped under R75 or R76. -/
def doFcFill (d : Dev) : Dev :=
  match d.disp.fills with
  | [] => d
  | (e, no) :: rest =>
    let d := d.updDisp fun x => { x with fills := rest }
    if lookD (e.hash.toNat % 4096) 0 d.disp.invTab > no then d.bump Base.dsp F.DSP_FC_FILL_DROP_COUNT
    else if d.disp.fcBlock || !d.flag Base.dsp F.DSP_FC_CTRL_FC_EN then d
    else d.updDisp fun x =>
      let l := x.fc.filter fun y => !(y.space == e.space && y.key == e.key)
      { x with fc := fcMakeRoom e.cells (2 * l.length + 1) l ++ [e] }

/-! ### Streams and the deferred-error log -/

/-- STREAM_TIMEOUT: an open stream none of whose parts has committed for REASM_MS is abandoned (R155). -/
def doStreamTimeout (sid i : Nat) (d : Dev) : Dev :=
  match d.ctx sid with
  | none => d
  | some c =>
    match c.streams[i]? with
    | none => d
    | some s => if s.sent < s.whole then d.abandonStream sid s.space s.key else d

/-- DEF_CLEAR_DELIVERED: every DELIVERED entry is freed (R199). -/
def doDefClearDelivered (d : Dev) : Dev :=
  d.updDisp fun x => { x with defLog := x.defLog.filter fun e => !e.2.delivered }

end Sys2Proof.Machine
end

