-- ==== Sys2Proof/Machine/Reads.lean ====
section
/-!
DEFINITION. Reads (chapter "Key-value commands"): GET, GET_RANGE and HEAD with their value and failure
blocks, opening sheaves, and LIST.
-/
namespace Sys2Proof.Machine

/-! ### Blocks (Tables 4-9 and 4-10) -/

def valueBlock (s : Snap) (off len : Nat) : List Byte :=
  be 8 s.version ++ be 4 s.length ++ be 4 (kflags s.held s.paired s.oneCopy) ++ be 8 s.written ++
    be 8 s.retain ++ be 4 off ++ be 4 len

def failureBlock (cutSeq cutFrags sheaf goodEnd : Nat) : List Byte :=
  be 4 cutSeq ++ be 2 cutFrags ++ zeros 2 ++ be 4 sheaf ++ be 4 goodEnd

/-- Data bytes of one response message (R144). -/
def msgBytes : Nat := 4194304

/-- Response messages of a range of n bytes. -/
def msgCount (n : Nat) : Nat := max 1 (ceilDiv n msgBytes)

/-- Fragments of a command's responses that have not left whole. -/
def Dev.unsentOf (d : Dev) (sid cid : Nat) : List OutFrag :=
  match d.ctx sid with
  | none => []
  | some x => x.out.filter fun f => f.cid == some cid && !f.good

/-! ### A read that fails (R145, R146, R332) -/

/-- The fragment that stands lowest. -/
def lowestFrag : List OutFrag → Option OutFrag
  | [] => none
  | f :: t =>
    match lowestFrag t with
    | none => some f
    | some g => if g.idx < f.idx then some g else some f

/-- Fragments of a response from one on are dropped from retention and from the transmit queues, and those of its
other messages that have not left whole. -/
def Dev.cutFrags (d : Dev) (sid : Nat) (f0 : OutFrag) : Dev :=
  let of (f : OutFrag) : Bool := if f0.cid.isSome then f.cid == f0.cid else f.seq == f0.seq && f.epoch == f0.epoch
  let gone (f : OutFrag) : Bool := of f && (f.seq != f0.seq || f0.idx ≤ f.idx) && !(f.seq != f0.seq && f.good)
  let dead := match d.ctx sid with
    | some x => x.out.filter gone
    | none => []
  let d := d.updCtx sid fun x => { x with out := x.out.filter fun f => !gone f }
  allPorts.foldl (fun d p => d.updPort p fun x => { x with
    txq := x.txq.filter fun e => !(dead.any fun f => e.item == .skp sid f.epoch f.seq f.idx) }) d

/-- The response ends with one message of the failure's status; a GET or GET_RANGE carries the failure
block, a HEAD nothing. -/
def Dev.failRead (d : Dev) (cid status sheaf : Nat) : Dev :=
  match d.cmd cid with
  | none => d
  | some c =>
    let d := d.updCmd cid fun x => { x with failed := true }
    if c.op = Op.head then d.answer cid status []
    else
      let length := (c.snap.map (·.length)).getD 0
      let start := (c.range length).1
      match lowestFrag (d.unsentOf c.sid cid) with
      | none =>
        let fin := (c.range length).2
        let sent := c.respSeqs.length
        let goodEnd := if sent = 0 then start else max start (min fin (start + sent * msgBytes))
        d.answer cid status (failureBlock 0 0 sheaf goodEnd)
      | some f =>
        let base := start + (c.respSeqs.length - 1) * msgBytes
        let goodEnd := base + (f.off - (if f.deferred then 24 else 0) - 40)
        (d.cutFrags c.sid f).answer cid status (failureBlock f.seq f.idx sheaf goodEnd)

/-! ### Answering a read -/

/-- Every copy of a read has reported its snapshot, and no last response has been generated. -/
def Cmd.readReady (c : Cmd) : Bool :=
  !c.owners.isEmpty && (c.owners.all fun n => c.passed.contains n) && !c.answered

/-- The serving copy cannot give a sheaf, or its record (sheaf 0xFFFF_FFFF), and the other copy of the same version
takes over there, unless it has just failed at the same place (R268, R333). -/
def Dev.serveOther (d : Dev) (cid : Nat) (c : Cmd) (s : Snap) (sheaf : Nat) : Option Dev :=
  if s.tried.map (·.2) = some sheaf then none
  else
    match (d.sw s.swath).find c.space c.key with
    | none => none
    | some k =>
      if k.version ≠ s.version then none
      else
        match d.twin s.swath k with
        | none => none
        | some (m, y) =>
          if ((d.sw m).lostSheaves y).contains sheaf then none
          else
            let s' : Snap := { s with
              swath := m, tried := some (s.swath, sheaf), recBad := false, lost := (d.sw m).lostSheaves y,
              recLoc := y.loc, extents := y.extents, pins := (d.sw m).sbsOf y }
            let d := (d.updCmd cid fun x => { x with snap := some s' }).vcSweep s.swath
            some (if y.value.length = 0 then d else d.cacheUse m c s.length (c.sheafUnits s'))

/-- The other copy takes over from one that is LOST, which is repaired from it (R195, R268). -/
def Dev.serveLost (d : Dev) (cid : Nat) (c : Cmd) (s : Snap) (sheaf : Nat) : Option Dev :=
  (d.serveOther cid c s sheaf).map fun e =>
    match (e.sw s.swath).find c.space c.key with
    | some k => e.repaired s.swath k (if sheaf = 0xFFFFFFFF then 0 else sheaf)
    | none => e

/-- The sheaf at which the other copy failed is good in this one: the other is repaired (R333). -/
def Dev.mendTried (d : Dev) (c : Cmd) (s : Snap) (i : Nat) : Dev :=
  match s.tried with
  | none => d
  | some (n, j) =>
    match (d.sw n).find c.space c.key with
    | some k => if j = i ∧ k.version = s.version ∧ k.badSheaves.contains i then d.repaired n k i else d
    | none => d

/-- Statuses a read ends with before any data, in the order of R132: NOT_FOUND, a lost record,
VERSION_MISMATCH (R150), RANGE_INVALID (R149). NOT_FOUND and RANGE_INVALID carry no payload (DESIGN CHOICE, log
entry 95: the spec does not say whether they carry a value block). -/
def Dev.readRefusal (d : Dev) (cid : Nat) (c : Cmd) (s : Snap) : Option Dev :=
  let b := c.block
  if !s.found then some (d.answer cid St.notFound [])
  else if s.recBad then
    some (match d.serveLost cid c s 0xFFFFFFFF with
      | some d => d
      | none => d.failRead cid St.mediaLost 0xFFFFFFFF)
  else if b.ifVersion && b.version != s.version then
    some (d.answer cid St.versionMismatch (valueBlock s 0 0))
  else if c.op == Op.getRange && decide (s.length < b.offset) then
    some (d.answer cid St.rangeInvalid [])
  else none

/-- The fill a GET's response offers (R71). -/
def Dev.offerFill (d : Dev) (c : Cmd) (s : Snap) : Dev :=
  if c.op == Op.get && !c.block.noCache && d.fcEligible { c with oneFrame := true } &&
      decide (s.length ≤ 512) && !s.oneCopy then
    let e : FcEnt := { space := c.space, hash := c.hash, key := c.key, version := s.version,
                       value := s.value, kflags := kflags s.held s.paired s.oneCopy,
                       written := s.written, retain := s.retain, used := false }
    d.updDisp fun x => { x with fills := x.fills ++ [(e, c.invNo)] }
  else d

/-- Every sheaf of the last message is open: the read ends with OK (R605), and its fill is offered. -/
def Dev.readDone (d : Dev) (c : Cmd) (s : Snap) : Dev := (d.offerFill c s).latency c (some s.swath)

/-- The next response message of a GET or GET_RANGE: 4,194,304 data bytes, generated once the message
before it has left (R144). Its fragments wait for the sheaves they need (R331). -/
def Dev.nextMessage (d : Dev) (cid : Nat) (c : Cmd) (s : Snap) : Dev :=
  let (a, z) := c.range s.length
  let j := c.respSeqs.length
  let off := a + j * msgBytes
  let data := (s.value.drop off).take (min msgBytes (z - off))
  let more := decide (j + 1 < msgCount (z - a))
  let need (e : Nat) : Nat := if e ≤ 40 then 0 else sheafSpan a (off + (e - 40))
  let d := d.refill s.swath 4
  let d := if more || decide (c.opened < sheafSpan a z) then d else d.readDone c s
  d.answerNeed cid St.ok (valueBlock s off data.length ++ data) more (some s.swath.val) none need

/-- The first sheaf of the range, when it is LOST before anything of the response exists (R145). -/
def lostFirst (c : Cmd) (s : Snap) : Option Nat :=
  let (a, z) := c.range s.length
  if a < z ∧ c.respSeqs.isEmpty ∧ s.lost.contains (a / 4096) then some (a / 4096) else none

/-- GET and GET_RANGE at their swath; at a frozen one they wait (R380). -/
def Dev.serveRead (d : Dev) (cid : Nat) (c : Cmd) : Dev :=
  match c.snap with
  | none => d
  | some s =>
    if !c.readReady || !d.swRuns s.swath then d
    else
      match (if c.started then none else d.readRefusal cid c s) with
      | some d => d
      | none =>
        match lostFirst c s with
        | some i => (d.serveLost cid c s i).getD (d.failRead cid St.mediaLost i)
        | none => if !(d.unsentOf c.sid cid).isEmpty then d else d.nextMessage cid c s

/-- An earlier command in the dispatcher's order changes the same key. -/
def Dev.changeAhead (d : Dev) (cid : Nat) (c : Cmd) : Bool :=
  (d.disp.wait.takeWhile (· != cid)).any fun e =>
    match d.cmd e with
    | some q => isChange q.op && q.space == c.space && q.key == c.key
    | none => false

/-- FC_LOOKUP_ANSWER (R72, R228): the entry that answers a GET not yet admitted. -/
def Dev.fcHit (d : Dev) (cid : Nat) (c : Cmd) : Option FcEnt :=
  if (c.st == .inSession || c.st == .waitRes) && c.op == Op.get && c.gotAll && c.oneFrame &&
      d.flag Base.dsp F.DSP_FC_CTRL_FC_EN && !d.changeAhead cid c && !d.eraseHolds c.space &&
      !d.resetting .dispatcher then
    d.disp.fc.find? fun e => e.space == c.space && e.key == c.key
  else none

/-- The value block and data of a front-cache answer. -/
def FcEnt.answer (e : FcEnt) : List Byte :=
  be 8 e.version ++ be 4 e.value.length ++ be 4 e.kflags ++ be 8 e.written ++ be 8 e.retain ++ be 4 0 ++
    be 4 e.value.length ++ e.value

/-- Answer from the front cache: counted in its class only (R605); its pattern result is discarded when it
comes, or now when it is ready (R228). -/
def Dev.fcAnswer (d : Dev) (cid : Nat) (c : Cmd) (e : FcEnt) : Dev :=
  let b := c.block
  let d := d.updDisp fun x => { x with
    fc := x.fc.map fun y => if y.space == e.space && y.key == e.key then { y with used := true } else y }
  let d := (d.leaveKey c.keyNo).bump Base.dsp F.DSP_FC_HITS_COUNT
  if b.ifVersion && b.version != e.version then
    d.answer cid St.versionMismatch
      (be 8 e.version ++ be 4 e.value.length ++ be 4 e.kflags ++ be 8 e.written ++ be 8 e.retain ++
        be 4 0 ++ be 4 0)
  else (d.latency c none).answer cid St.ok e.answer

/-- GET: answered from the front cache on a hit, otherwise by its swath, a message at a time. -/
def doGet (cid : Nat) (d : Dev) : Dev :=
  match d.cmd cid with
  | none => d
  | some c =>
    if c.op ≠ Op.get then d
    else
      match d.fcHit cid c with
      | some e => d.fcAnswer cid c e
      | none => d.serveRead cid c

/-- GET_RANGE. -/
def doGetRange (cid : Nat) (d : Dev) : Dev :=
  match d.cmd cid with
  | none => d
  | some c => if c.op ≠ Op.getRange then d else d.serveRead cid c

/-- HEAD: the value block with DATA_LEN 0; a LOST unit of the value fails it (R307). -/
def doHead (cid : Nat) (d : Dev) : Dev :=
  match d.cmd cid with
  | none => d
  | some c =>
    match c.snap with
    | none => d
    | some s =>
      if c.op ≠ Op.head ∨ !c.readReady ∨ !d.swRuns s.swath then d
      else
        match d.readRefusal cid c s with
        | some d => d
        | none =>
          match s.lost with
          | i :: _ => (d.serveLost cid c s i).getD (d.failRead cid St.mediaLost i)
          | [] => (d.latency c (some s.swath)).answer cid St.ok (valueBlock s 0 0)

/-! ### SHEAF_OPEN (R331 to R334) -/

/-- Remember a sheaf whose tag fails, for as long as the key keeps the version (R334). -/
def Dev.markSheaf (d : Dev) (n : Fin 16) (c : Cmd) (s : Snap) (i : Nat) : Dev :=
  d.updSw n fun w =>
    match w.find c.space c.key with
    | some k =>
      if k.version = s.version then
        w.setKey { k with badSheaves := insertNat i k.badSheaves }
      else w
    | none => w

/-- The stored sheaf has failed before. -/
def Dev.knownBad (d : Dev) (n : Fin 16) (c : Cmd) (s : Snap) (i : Nat) : Bool :=
  match (d.sw n).find c.space c.key with
  | some k => k.version == s.version && k.badSheaves.contains i
  | none => false

/-- The tag of a sheaf of the snapshot verifies: it was sealed as the sheaf of this key, version and position
(R322), and it has not failed before (R334). -/
def Dev.snapOpens (d : Dev) (n : Fin 16) (c : Cmd) (s : Snap) (i : Nat) : Bool :=
  !d.knownBad n c s i &&
    match extentOf s.extents i with
    | some e => e.opens (d.dataKey c.space) c.hash s.length i
    | none => false

/-- SHEAF_OPEN: the next sheaf of a read is opened; its plaintext is released once its tag has
verified; `ok` is false where the stored bytes have changed. A failing tag or a LOST sheaf ends the response,
unless the other copy of a paired key takes over. -/
def doSheafOpen (n : Fin 16) (cid : Nat) (ok : Bool) (d : Dev) : Dev :=
  match d.cmd cid with
  | none => d
  | some c =>
    match c.snap with
    | none => d
    | some s =>
      let (a, z) := c.range s.length
      if s.swath ≠ n ∨ !d.swRuns n ∨ !(c.op == Op.get || c.op == Op.getRange) ∨ !c.started ∨ s.recBad ∨
          sheafSpan a z ≤ c.opened ∨ c.failed ∨ (c.answered && (d.unsentOf c.sid cid).isEmpty) then d
      else
        let i := a / 4096 + c.opened
        if s.lost.contains i then (d.serveLost cid c s i).getD (d.failRead cid St.mediaLost i)
        else if ok && d.snapOpens n c s i then
          let d := ((d.bump (Base.sw n) F.SW_CIP_OPEN_COUNT).updCmd cid fun x =>
            { x with opened := x.opened + 1 }).mendTried c s i
          if c.answered && c.opened + 1 == sheafSpan a z then d.readDone c s else d
        else
          let d := (d.bump (Base.sw n) F.SW_CIP_OPEN_COUNT).markSheaf n c s i
          match d.serveOther cid c s i with
          | some d => d.tagFailed n c.space c.hash i false false true
          | none => (d.tagFailed n c.space c.hash i false false false).failRead cid St.mediaAuthFail i

/-! ### LIST (R164 to R166, R612) -/

/-- Keys of a slot in a key space in the order of a LIST: by hash, failed records last, then by key. -/
def listBefore (a b : KeyEnt) : Bool :=
  decide (a.hash.toNat < b.hash.toNat) ||
    (a.hash == b.hash && ((!a.recBad && b.recBad) ||
      (a.recBad == b.recBad && decide (a.key.map (·.toNat) < b.key.map (·.toNat)))))

def insertList (x : KeyEnt) : List KeyEnt → List KeyEnt
  | [] => [x]
  | e :: t =>
    if e.key == x.key && e.hash == x.hash then e :: t
    else if listBefore x e then x :: e :: t else e :: insertList x t

/-- The keys of a slot at its sources, each once. A failed record is met whatever its key. -/
def Dev.slotKeys (d : Dev) (space s : Nat) (pre : List Byte) (from_ : List (Fin 16)) : List KeyEnt :=
  from_.foldl (fun acc n =>
    ((d.sw n).keys.filter fun k =>
      k.space == space && hashSlot k.hash == s &&
        ((d.sw n).recLost k || k.key.take pre.length == pre)).foldl
      (fun acc k => insertList { k with recBad := (d.sw n).recLost k } acc) acc) []

/-- One entry of a LIST response (Table 4-13). -/
def Dev.listEntry (d : Dev) (noMeta : Bool) (k : KeyEnt) : List Byte :=
  if noMeta then be 2 k.key.length ++ k.key
  else
    be 2 k.key.length ++
      be 2 (kflags k.held k.paired (k.paired && d.eitherAhead k.space k.key k.hash)) ++
      be 4 k.value.length ++ be 8 k.version ++ be 8 k.retain ++ k.key

/-- How a scan stands: entries so far, their bytes, the cursor, the keys at the cursor's first hash still
to be passed over, and why it stopped. -/
structure Scan where
  bytes  : List Byte
  count  : Nat
  hash   : Nat
  same   : Nat
  skip   : Nat
  status : Nat
  stop   : Bool
  reads  : List (Fin 16)

/-- Pad to an entry boundary. -/
def padTo2 (n align : Nat) : Nat := (align - n % align) % align

/-- One key of a slot. -/
def Dev.scanKey (d : Dev) (noMeta : Bool) (most cursor : Nat) (x : Scan) (k : KeyEnt) : Scan :=
  let h := k.hash.toNat
  if x.stop || decide (h < cursor) then x
  else if h == cursor && decide (0 < x.skip) then { x with skip := x.skip - 1 }
  else if most ≤ x.count then { x with stop := true }
  else if k.recBad then
    { x with stop := true, status := St.mediaLost, same := if x.hash = h then x.same else 0, hash := h }
  else
    let e := d.listEntry noMeta k
    let pad := zeros (padTo2 x.bytes.length (if noMeta then 2 else 8))
    if 4194304 < 24 + x.bytes.length + pad.length + e.length then { x with stop := true }
    else { x with
      bytes := x.bytes ++ pad ++ e, count := x.count + 1,
      same := if x.hash = h then x.same + 1 else 1, hash := h }

/-- One slot. -/
def Dev.scanSlot (d : Dev) (space : Nat) (pre : List Byte) (noMeta : Bool) (most cursor : Nat) (x : Scan)
    (s : Nat) : Scan :=
  if x.stop then x
  else
    match d.listSources space s with
    | none =>
      if most ≤ x.count then { x with stop := true }
      else if cursor < s * 2 ^ 56 then
        { x with stop := true, status := St.swathOffline, hash := s * 2 ^ 56, same := 0 }
      else { x with stop := true, status := St.swathOffline }
    | some from_ =>
      let x := { x with reads := x.reads ++ from_.filter fun n => !x.reads.contains n }
      (d.slotKeys space s pre from_).foldl (d.scanKey noMeta most cursor) x

/-- Cursor of a LIST: the hash it goes on from. -/
def Cmd.cursor (c : Cmd) : Nat := fieldBe c.data 8 8

/-- The scan of a LIST, from its cursor's slot on. -/
def Dev.listScan (d : Dev) (c : Cmd) : Scan :=
  let same := fieldBe c.data 0 2
  let first := c.cursor / 2 ^ 56
  let x0 : Scan := { bytes := [], count := 0, hash := c.cursor, same := same, skip := same,
                     status := St.ok, stop := false, reads := [] }
  ((List.range (256 - first)).map (first + ·)).foldl
    (d.scanSlot c.space c.key c.block.noMeta c.block.len c.cursor) x0

/-- Payload of a LIST response (Table 4-13): the cursor to go on from, the entries, and whether the scan reached
the end. -/
def Scan.body (x : Scan) : List Byte :=
  be 2 x.same ++ zeros 6 ++ be 8 x.hash ++ be 4 x.count ++ be 4 (b2n (!x.stop)) ++ x.bytes

/-- LIST. -/
def doList (cid : Nat) (d : Dev) : Dev :=
  match d.cmd cid with
  | none => d
  | some c =>
    if c.op ≠ Op.list ∨ c.st ≠ .running ∨ !c.gotAll then d
    else
      let x := d.listScan c
      let d := x.reads.foldl (fun d n => d.bump (Base.sw n) (F.SW_OP_CNT_COUNT.at Op.list)) d
      let d := if x.status = St.ok then d.latency c x.reads.head? else d
      d.answer cid x.status x.body

end Sys2Proof.Machine
end

