-- ==== Sys2Proof/Machine/Writes.lean ====
section
/-!
DEFINITION. Writes, removals and holds at their order points (chapters "Key-value commands", "Ordering,
completion and durability", "Placement and the swath index"): the tests of R132, the switch with its
records and reservations, paired keys, streams, long range writes and secure discard.
-/
namespace Sys2Proof.Machine

/-! ### Key results (Table 4-7, R143) -/

def Dev.keyResult (d : Dev) (k : KeyEnt) : List Byte :=
  be 8 k.version ++ be 4 k.value.length ++
    be 4 (kflags k.held k.paired (k.paired && d.eitherAhead k.space k.key k.hash)) ++ be 8 k.retain

/-- The key result of an absent key: its PAIRED flag is that of the key space (Table 4-8). -/
def absentResult (paired : Bool) : List Byte := zeros 12 ++ be 4 (kflags false paired false) ++ zeros 8

/-- After a removal: the version removed, LENGTH 0, flags and stamp of the key as removed. -/
def removedResult (k : KeyEnt) (oneCopy : Bool) : List Byte :=
  be 8 k.version ++ be 4 0 ++ be 4 (kflags k.held k.paired (k.paired && oneCopy)) ++ be 8 k.retain

/-! ### Free values -/

/-- The next free value of 32 bits. -/
def Dev.takeFree (d : Dev) : Dev × Nat :=
  ({ d with freeNo := d.freeNo + 1 }, (Config.freeWord d.freeNo).toNat)

/-- The key result of a key whose record cannot be read: HELD, PAIRED and the length code stand in the
index entry, VTAG gives the low byte of the version, and no rule states the rest. -/
def Dev.blindResult (d : Dev) (k : KeyEnt) : Dev × List Byte :=
  let (d, a) := d.takeFree
  let (d, b) := d.takeFree
  let (d, r) := d.takeFree
  let (d, r') := d.takeFree
  (d, be 4 a ++ be 3 b ++ be 1 k.version ++ be 4 k.value.length ++
    be 4 (kflags k.held k.paired (k.paired && d.eitherAhead k.space k.key k.hash)) ++
    be 4 r ++ be 4 r')

/-! ### Inputs (R236, R467, R468) -/

/-- A stuck or suspended input counts as inactive. -/
def InputSt.counts (x : InputSt) : Bool := x.active && !x.stuck && !x.susp

/-- The winning rule includes an active HOLD input (R236): HOLD_SEL 1 or 3 HOLD_A, 2 or 3 HOLD_B. -/
def Dev.heldByInput (d : Dev) (sel : Nat) : Bool :=
  (bit sel 0 && d.flag Base.glb F.GLB_IN_CFG_HA_EN && d.io.holdA.counts) ||
    (bit sel 1 && d.flag Base.glb F.GLB_IN_CFG_HB_EN && d.io.holdB.counts)

/-! ### The tests at the order point (R132, R140, R183, R613) -/

/-- The operations of R140. -/
def changesValue (op : Nat) : Bool := isWrite op || op == Op.delete || op == Op.discardSecure

/-- Length of the value that a range write leaves. -/
def Cmd.rangeEnd (c : Cmd) (old : Nat) : Nat :=
  max old ((if c.op = Op.append then old else c.block.offset) + c.len)

/-- What refuses a change at one swath: a status, and the key its key result describes. `badPart` is a part of a
stream that breaks R152. A DELETE with IF_VERSION on a key whose record has failed compares the version the
record held (DESIGN CHOICE, log entry 96: the spec does not say what is compared). -/
def Dev.judgeAt (d : Dev) (n : Fin 16) (c : Cmd) (badPart : Bool) : Option (Nat × Option KeyEnt) :=
  let b := c.block
  let w := isWrite c.op
  let s := d.sw n
  if d.exhausted n then some (St.mediaWorn, none)
  else
    match s.matched c.space c.key c.hash with
    | none =>
      if !w || c.op == Op.writeRange || (c.op == Op.append && !b.create) then some (St.notFound, none)
      else if c.op == Op.casPut && b.version != 0 then some (St.versionMismatch, none)
      else if badPart then some (St.rangeInvalid, none)
      else if c.op == Op.append && decide (4294967295 < c.rangeEnd 0) then some (St.tooLarge, none)
      else if !c.keyHeld.contains n then some (St.keysExhausted, none)
      else none
    | some k =>
      let lost := s.recLost k
      if changesValue c.op && k.held then some (St.retained, some k)
      else if changesValue c.op && k.retain != 0 && lost then some (St.retained, some k)
      else if changesValue c.op && k.retain != 0 && !d.trusted then some (St.timeUntrusted, some k)
      else if changesValue c.op && decide (d.stamp < k.retain) then some (St.retained, some k)
      else if (c.isRange && (lost || !(s.lostSheaves k).isEmpty)) || (c.op == Op.casPut && lost) then
        some (St.mediaLost, none)
      else if c.op == Op.casPut && b.version != k.version then some (St.versionMismatch, some k)
      else if c.op == Op.delete && b.ifVersion && b.version != k.version then
        some (St.versionMismatch, some k)
      else if badPart || (c.op == Op.writeRange && decide (k.value.length < b.offset)) then
        some (St.rangeInvalid, none)
      else if c.isRange && decide (4294967295 < c.rangeEnd k.value.length) then some (St.tooLarge, none)
      else none

/-- The owner whose copy of the key is ahead of the other's (R269). -/
def Dev.aheadOwner (d : Dev) (c : Cmd) : Option (Fin 16) :=
  c.owners.find? fun n =>
    (match (d.sw n).find c.space c.key with
     | some k => k.ahead
     | none => false) ||
      (d.sw n).tombs.any fun t => t.space == c.space && t.key == c.key && t.lag

/-- What refuses a change: the refusal of the copy that is ahead, otherwise the first one of any owner.
Once a copy has passed, or has applied a piece, the other follows it. -/
def Dev.judge (d : Dev) (c : Cmd) (badPart : Bool) : Option (Nat × Option KeyEnt) :=
  if !c.passed.isEmpty || !c.pieces.isEmpty then none
  else
    match d.aheadOwner c with
    | some n => d.judgeAt n c badPart
    | none => c.owners.findSome? fun n => d.judgeAt n c badPart

/-- A change of part of a key's state waits on both copies until the lagging one has caught up; not for a copy
whose record is lost, which cannot be sent. -/
def Dev.awaitsCatchup (d : Dev) (c : Cmd) : Bool :=
  c.passed.isEmpty && c.pieces.isEmpty && c.owners.length == 2 &&
    match d.aheadOwner c with
    | some n =>
      (match (d.sw n).find c.space c.key with
       | some k => !(d.sw n).recLost k
       | none => true)
    | none => false

/-- Refuse at the order point (R132, R143, R179). -/
def Dev.refuseAt (d : Dev) (cid : Nat) (c : Cmd) (n : Fin 16) (r : Nat × Option KeyEnt) : Dev :=
  let d := if c.op = Op.putStream then d.abandonStream c.sid c.space c.key else d
  let shows := r.1 == St.versionMismatch || r.1 == St.retained || r.1 == St.timeUntrusted
  let d := c.owners.foldl (fun d m => if d.swFrozen m then d else d.markPassed m cid c) d
  if !shows then d.refuse cid r.1 []
  else
    match r.2 with
    | none => d.refuse cid r.1 (absentResult (d.isPaired c))
    | some k =>
      if (d.sw n).recLost k then
        let (d, p) := d.blindResult k
        d.refuse cid r.1 p
      else d.refuse cid r.1 (d.keyResult k)

/-! ### Packing (R288, R289) -/

/-- Bytes of a packed item: record, sealed value and trailer, padded to 512. -/
def packBytes (k : KeyEnt) : Nat :=
  ceilDiv (k.recLen + sheavesOf k.value.length * 4112 + 8) 512 * 512

/-- The open packing page with room for n bytes; a page that has none closes and the next opens. -/
def Swath.packRoom (s : Swath) (n : Nat) : Option (Swath × Nat) :=
  let fit := match s.packOpen.bind fun p => (look p s.pack).map fun x => (p, x) with
    | some (p, x) => if x.used + n ≤ 16384 then some p else none
    | none => none
  match fit with
  | some p => some (s, p)
  | none =>
    let s := match s.packOpen with
      | some p => { s with pack := adjust p (fun x => { x with closed := true }) s.pack, packOpen := none }
      | none => s
    let p := firstGap 0 s.pack
    if 32768 ≤ p then none
    else
      let page : PackPage := { used := 0, items := [], closed := false }
      some ({ s with pack := put p page s.pack, packOpen := some p }, p)

/-- Append an item. -/
def Swath.packItem (s : Swath) (p : Nat) (k : KeyEnt) : Swath :=
  { s with pack := adjust p (fun x => { x with
      used := x.used + packBytes k, items := x.items ++ [(k.space, k.key, k.version, x.used, packBytes k)] }) s.pack }

/-! ### The switch (R139, R179, R184, R252, R288, R329) -/

/-- The value a switch leaves: its bytes, the sheaves written anew, how many of them are merged, and
whether the whole value is new. -/
structure Change where
  value   : List Byte
  first   : Nat          -- first sheaf sealed
  sheaves : Nat
  merged  : Nat          -- sheaves merged with old bytes (R329)
  bytes   : Nat          -- bytes the write brings
  whole   : Bool
  piece   : Bool         -- one piece of a long range write: a PIECE record

/-- Seal nonce of the write's sheaves at a swath; a write that has taken no unit has none. -/
def Cmd.sealAt (c : Cmd) (n : Fin 16) : Nat :=
  match c.seals.find? fun e => e.1 == n with
  | some e => e.2
  | none => 0

/-- The pattern's stamp (R232). -/
def Cmd.patternStamp (c : Cmd) : Nat :=
  let r := c.theRule.retainS
  if r = 0 then 0 else c.admStamp + r * 1024

/-- The key as a write leaves it (R139, R236). -/
def Dev.newKey (d : Dev) (n : Fin 16) (c : Cmd) (old : Option KeyEnt) (ch : Change) (al : Alloc)
    (cnt rec ver sealVer : Nat) (alone : Bool) : KeyEnt :=
  let r := c.theRule
  let input := d.heldByInput r.holdSel
  let x : Extent := { loc := al.extLoc % 2 ^ 35, skip := 0, first := ch.first, sheaves := ch.sheaves,
                      sealBy := n.val, cnt := cnt, sealVer := sealVer,
                      made := d.sealNow n c.space cnt c.hash sealVer ch.value.length }
  let keep := old.isSome && !ch.whole
  let paired := d.isPaired c
  let oldX := if keep then (old.map (·.extents)).getD [] else []
  let xs := cutExtents ch.first (ch.first + ch.sheaves) oldX
  { space := c.space, key := c.key, hash := c.hash, version := ver, value := ch.value,
    written := c.admStamp,
    retain := if keep then (old.map (·.retain)).getD 0 else max c.block.stamp c.patternStamp,
    held := (keep && (old.map (·.held)).getD false) || input,
    paired := paired, ahead := paired && alone, packed := decide (ch.value.length ≤ 4096),
    loc := al.recLoc % 2 ^ 35,
    extents := if ch.sheaves = 0 then xs else insertExtent x xs,
    recSeal := rec, recKey := d.dataKey c.space, rseq := (d.sw n).rseq, rule := r.rule,
    alt := false, ovf := none, ent := 0, gone := [],
    parts := if ch.piece then lookD n.val 0 c.pieces + 1 else 1,
    recBad := false, drained := false, joinBad := keep && (old.map (·.joinBad)).getD false,
    badSheaves := if keep then
        ((old.map (·.badSheaves)).getD []).filter fun i => i < ch.first || ch.first + ch.sheaves ≤ i
      else [],
    sid := c.sid, tag := c.tag, seq := c.seq }

/-- The hold ring takes a write whose rule selects an input, once for all its pieces (R611). -/
def Swath.ringAdd (s : Swath) (c : Cmd) (k : KeyEnt) : Swath :=
  let r := c.theRule
  if r.holdSel = 0 ∨ (s.ringEntry k).isSome then s
  else s.ringPush { space := c.space, hash := c.hash, version := k.version, sel := r.holdSel,
                    clock := c.admClock, stamp := c.admStamp, mins := r.holdMin }

/-- The packing page of a packed key. -/
def Swath.pageFor (s : Swath) (k : KeyEnt) : Option (Swath × Option Nat) :=
  if k.packed then
    match s.packRoom (packBytes k) with
    | some (s, p) => some (s, some p)
    | none => none
  else some (s, none)

/-- FILLING units of a write become HELD at its switch (Table 5-5), and none of its units is ahead of it any more. -/
def holdUnits (k : KeyEnt) (t : Tbl BufUnit) : Tbl BufUnit :=
  t.map fun u =>
    if u.2.early && u.2.space == k.space && u.2.key == k.key && u.2.ver == k.version then
      (u.1, { u.2 with st := if u.2.st == .filling then .held else u.2.st, early := false })
    else u

/-- Extents the switch seals anew. -/
def KeyEnt.fresh (k : KeyEnt) (cnt first : Nat) : List Extent :=
  k.extents.filter fun e => e.cnt == cnt && e.first == first

/-- The swath's part of a switch: the packed item, the entry, the records, the map, the tombstones and the hold
ring. -/
def Swath.install (s : Swath) (c : Cmd) (old : Option KeyEnt) (k : KeyEnt) (cnt : Nat) (ch : Change)
    (page : Option Nat) : Swath :=
  let s := match page with
    | some p => s.packItem p k
    | none => s
  let s := s.enter (if ch.piece then 4 else 1) c.seq old k
    ((k.fresh cnt ch.first).flatMap Extent.units ++ k.recUnits) page (c.units.map (·.2))
  let s := if k.ahead then s.pairRec 7 c.seq k else s
  let s := s.dropTombs k.space k.key k.version
  { s with units := holdUnits k s.units, hostB := s.hostB + ch.bytes }.ringAdd c k

/-- A merge takes a COUNT value of its own (R329); otherwise the write's value of its first unit serves. -/
def Dev.sealCount (d : Dev) (n : Fin 16) (c : Cmd) (ch : Change) : Dev × Nat :=
  if ch.merged = 0 then (d, c.sealAt n)
  else
    match d.takeCount n with
    | (d, some v) => (d, v)
    | (d, none) => (d, c.sealAt n)

/-- The value cache takes the record, and the sheaves of a write of at most 64 KiB (R260). -/
def Dev.cacheWrite (d : Dev) (n : Fin 16) (c : Cmd) (k : KeyEnt) (xs : List Extent) : Dev :=
  d.vcPlace n (k.recCells ++ if c.wholeLen ≤ 65536 then xs.flatMap Extent.cells else [])

/-- The drive after a switch: counters, the cache, the overflow condition and the move list. -/
def Dev.switched (d before : Dev) (n : Fin 16) (c : Cmd) (old : Option KeyEnt) (k : KeyEnt) (cnt : Nat)
    (ch : Change) : Dev :=
  let b := Base.sw n
  let d := (d.bumpBy b F.SW_CIP_SEAL_COUNT (1 + ch.merged)).bumpBy b F.SW_CIP_RESEAL_COUNT ch.merged
  let d := d.bumpBy b F.SW_CIP_OPEN_COUNT ch.merged
  let d := match old with
    | some o => d.vcFreeOld n o
    | none => d
  let d := d.updSw n fun s => s.namePages n k.units
  ((d.cacheWrite n c k (k.fresh cnt ch.first)).condCheck before n 10).noteMove n c.space c.key c.hash

/-- The index switches to the new value at a swath: none while no room is left in the ring, the packing
area or the extent list (the write stays RUNNING: R257, R265), KEYS_EXHAUSTED where the index has no
room (R259), MEDIA_WORN once the counter is exhausted (R327), MEDIA_AUTH_FAIL where the extent list is full and
a sheaf that fails its tag keeps it from being joined (DESIGN CHOICE, log entry 97: R256 allows no more extents,
R329 lets the write wait no longer). -/
def Dev.switchAt (d : Dev) (n : Fin 16) (c : Cmd) (ch : Change) (al : Alloc) (ver sealVer : Nat)
    (alone : Bool) : Option (Dev × Option Nat) :=
  let old := (d.sw n).matched c.space c.key c.hash
  match (d.sw n).spotFor old c.hash with
  | none => some (d.bump (Base.sw n) F.SW_IDX_NOROOM_COUNT, some St.keysExhausted)
  | some (s1, spot) =>
    let (d1, cnt) := (d.setSw n s1).sealCount n c ch
    match d1.takeCount n with
    | (_, none) => some (d, some St.mediaWorn)
    | (d2, some rec) =>
      let k := (d2.newKey n c old ch al cnt rec ver sealVer alone).atSpot spot
      if 220 < k.extents.length then
        if k.joinBad then some (d, some St.mediaAuthFail) else none
      else
        match (d2.sw n).pageFor k with
        | none => none
        | some (s2, page) =>
          let mine := { c with units := c.units.filter fun u => u.1 == n }
          let d3 := (d2.setSw n (s2.install mine old k cnt ch page)).switched d n c old k cnt ch
          (d3.ifFits n).map fun d => (d, none)

/-! ### The targets of a secure discard (R312) -/

/-- Superblocks whose key filter may hold a key (R312). -/
def Swath.filterTargets (s : Swath) (space : Nat) (hash : DWord) : List Nat :=
  (s.sbs.filter fun e => e.2.st != .erased && e.2.st != .retired && e.2.mayHold space hash).map (·.1)

/-- Mark the targets of a secure discard; an open one is closed. -/
def Swath.markTargets (s : Swath) (ts : List Nat) (nowS : Nat) : Swath :=
  ts.foldl (fun s i =>
    let x := s.sb i
    let s := s.setSb i { x with target := true }
    if x.st == .slcOpen || x.st == .qlcOpen then s.closeSb i nowS false else s) s

/-- Secure discards mark their targets (R312 step 1). -/
def Swath.beginDiscards (s : Swath) (p : Discard → Bool) (nowS : Nat) : Swath :=
  (s.discards.filter p).foldl (fun s x =>
    let ts := s.filterTargets x.space x.hash
    let s := s.markTargets ts nowS
    { s with discards := s.discards.map fun y =>
        if y.cid == x.cid && y.version == x.version then { y with begun := true, targets := ts } else y }) s

/-- The first response message of a DISCARD_SECURE, after which its targets are marked (R162, R312). -/
def Dev.firstDiscard (d : Dev) (cid : Nat) (result : List Byte) : Dev :=
  let d := d.answerNeed cid St.ok result true none none (fun _ => 0)
  allSwaths.foldl (fun d n => d.updSw n fun s => s.beginDiscards (fun x => x.cid == cid) d.calSec) d

/-! ### Completing on every owner -/

/-- The order point of a change has passed at a swath with a key result; on the last owner the command
is answered (R184, R192). -/
def Dev.passChange (d : Dev) (n : Fin 16) (cid : Nat) (c : Cmd) (result : List Byte) : Dev :=
  let d := d.markPassed n cid c
  let result := if c.passed.isEmpty then result else c.result
  let d := d.updCmd cid fun x => { x with result := result, units := x.units.filter fun u => u.1 != n }
  let left := c.owners.filter fun m => m != n && !c.passed.contains m
  if !left.isEmpty then d
  else if c.op = Op.discardSecure then d.firstDiscard cid result
  else (d.latency c (some (d.slot (hashSlot c.hash)).owner)).answer cid St.ok (result.take 24)

/-- The command stands at a swath and may take its order point there. -/
def Cmd.runsAt (c : Cmd) (n : Fin 16) : Bool :=
  c.eligible.contains n && c.owners.contains n && !c.passed.contains n && !c.abort

/-- A paired write waits for its switch order (R192); with one owner left it is switched alone by the
dispatcher (R193). -/
def Dev.mayPass (d : Dev) (c : Cmd) (alone : Bool) : Bool :=
  if d.isPaired c then (if alone then c.owners.length == 1 else c.ordered && c.owners.length == 2)
  else !alone

/-! ### Whole-value writes: PUT, CAS_PUT and the last part of a PUT_STREAM -/

/-- The value a whole write leaves. -/
def wholeChange (v : List Byte) : Change :=
  { value := v, first := 0, sheaves := sheavesOf v.length, merged := 0, bytes := v.length, whole := true,
    piece := false }

/-- The stream's bytes with the last part laid over them. -/
def streamValue (s : Stream) (c : Cmd) : List Byte := overlay s.data c.block.offset (c.data.take c.len)

/-- The last part takes over its stream's value and reservations; the stream is closed (R154). -/
def Dev.absorbStream (d : Dev) (cid : Nat) (c : Cmd) : Dev × Cmd × List Byte :=
  if c.op ≠ Op.putStream then (d, c, c.data.take c.len)
  else
    match d.streamOf c with
    | none => (d, c, c.result.drop 24)
    | some s =>
      let c' := { c with chargeL := s.chargeL, chargeP := s.chargeP, chargedOn := s.owners,
                         keyHeld := s.keyHeld, seals := s.seals }
      let d := d.updCmd cid fun x => { x with
        chargeL := s.chargeL, chargeP := s.chargeP, chargedOn := s.owners, keyHeld := s.keyHeld,
        seals := s.seals }
      let d := d.updCtx c.sid fun x => { x with
        streams := x.streams.filter fun y => !(y.space == c.space && y.key == c.key) }
      (d, c', streamValue s c)

/-- Units a stream's earlier parts filled become the last part's. -/
def Dev.adoptUnits (d : Dev) (n : Fin 16) (cid : Nat) (c : Cmd) (ver : Nat) : Dev :=
  d.updSw n fun s => { s with
    units := s.units.map fun u =>
      (u.1, if u.2.space == c.space && u.2.key == c.key &&
          (u.2.cid == some cid || (u.2.cid.isNone && u.2.early && u.2.ver == ver)) then
        { u.2 with ver := c.ver, cid := some cid } else u.2) }

/-- SEAL_VERSION at the second copy of a paired value: that of the first. -/
def Dev.sealVerOf (d : Dev) (c : Cmd) : Nat :=
  match c.passed with
  | [] => c.ver
  | m :: _ =>
    match (d.sw m).find c.space c.key with
    | some k => ((k.extents.head?).map (·.sealVer)).getD c.ver
    | none => c.ver

/-- The order point of a PUT, CAS_PUT or last PUT_STREAM part at a swath. The first copy keeps the whole
value of a stream behind its key result for the other. -/
def Dev.writeWhole (d : Dev) (n : Fin 16) (cid : Nat) (al : Alloc) (alone : Bool) : Dev :=
  match d.cmd cid with
  | none => d
  | some c =>
    let st := if c.op = Op.putStream then d.streamOf c else none
    let bad := d.badPart cid c
    if !(c.op == Op.put || c.op == Op.casPut || c.op == Op.putStream) || c.midPart || !c.runsAt n ||
        !c.buffered n || !d.mayPass c alone || !d.swRuns n ||
        (c.passed.isEmpty && !bad && !((st.map (·.parts)).getD []).all (· == cid)) then d
    else
      let held := match st with
        | some s => if bad then c.keyHeld else s.keyHeld
        | none => c.keyHeld
      match d.judge { c with keyHeld := held } bad with
      | some r => d.refuseAt cid c n r
      | none =>
        let d0 := d
        let sver := (st.map (·.ver)).getD (d.sealVerOf c)
        let (d, c, v) := d.absorbStream cid c
        let d := if c.op = Op.putStream then d.adoptUnits n cid c sver else d
        match d.switchAt n c (wholeChange v) al c.ver sver alone with
        | none => d0
        | some (d, some st) => d.refuseAt cid c n (st, none)
        | some (d, none) =>
          let oldLen := ((d0.sw n).matched c.space c.key c.hash).map KeyEnt.charge
          let d := d.settleAt n cid c oldLen (some v.length)
          match (d.sw n).find c.space c.key, d.cmd cid with
          | some k, some c' =>
            d.passChange n cid c'
              (if c.op = Op.putStream then d.keyResult k ++ v else d.keyResult k)
          | _, _ => d

/-- A part of a stream other than the last is answered with the key result of the old value, once it is buffered
on every owner (R154); one that breaks R152 with RANGE_INVALID, and its stream is abandoned (R153). -/
def Dev.partAnswer (d : Dev) (n : Fin 16) (cid : Nat) : Dev :=
  match d.cmd cid with
  | none => d
  | some c =>
    if !c.midPart || !c.runsAt n || !d.swRuns n then d
    else if d.badPart cid c then (d.abandonStream c.sid c.space c.key).refuse cid St.rangeInvalid []
    else if !(c.owners.all c.buffered) then d
    else
      let kr := match (d.sw n).find c.space c.key with
        | some k => d.keyResult k
        | none => absentResult (d.isPaired c)
      let d := d.updCtx c.sid fun x => { x with
        streams := x.streams.map fun s =>
          if s.space == c.space && s.key == c.key then
            { s with data := streamValue s c, parts := s.parts.filter (· != cid) }
          else s }
      let d := c.owners.foldl (fun d m => d.updSw m fun s => { s with
        units := s.units.map fun u => (u.1, if u.2.cid == some cid then { u.2 with cid := none } else u.2) }) d
      (d.updCmd cid fun x => { x with units := [] }).answer cid St.ok kr

/-! ### Range writes -/

/-- Pieces of a range write. -/
def Cmd.pieceCount (c : Cmd) : Nat := max 1 (ceilDiv c.len pieceBytes)

/-- The change of one piece on a value: its bytes at an offset, merged at both ends (R329). -/
def rangeChange (old data : List Byte) (off : Nat) (piece : Bool) : Change :=
  let z := off + data.length
  let first := off / 4096
  let last := (z - 1) / 4096
  let lead := off % 4096 != 0
  let tail := z % 4096 != 0 && decide (z < old.length)
  { value := overlay old off data, first := first, sheaves := last - first + 1,
    merged := if first = last then b2n (lead || tail) else b2n lead + b2n tail,
    bytes := data.length, whole := false, piece := piece }

/-- The sheaves a range write merges. -/
def mergeEdges (off len old : Nat) : List Nat :=
  (if off % 4096 ≠ 0 then [off / 4096] else []) ++
    (if (off + len) % 4096 ≠ 0 ∧ off + len < old then [(off + len) / 4096] else [])

/-- A range write stops at a swath (R196, R330): it is refused when nothing is applied, otherwise it ends with
its own record. -/
def Dev.stopRange (d : Dev) (n : Fin 16) (cid : Nat) (c : Cmd) (status : Nat) : Dev :=
  if c.goodBytes = 0 then d.refuseAt cid c n (status, none) else (d.markPassed n cid c).refuse cid status []

/-- The data of piece j. -/
def Cmd.pieceData (c : Cmd) (j : Nat) : List Byte := ((c.data.take c.len).drop (j * pieceBytes)).take pieceBytes

/-- Piece j, its last or one before it, is there to be switched at a swath. -/
def Dev.pieceHere (d : Dev) (n : Fin 16) (c : Cmd) (j : Nat) : Bool :=
  let upTo := min c.len ((j + 1) * pieceBytes)
  if j + 1 = c.pieceCount then c.buffered n
  else c.eligible.contains n && decide (upTo ≤ d.received c) && decide (unitsFor upTo ≤ lookD n.val 0 c.taken)

/-- A merged sheaf fails its tag: counted, and remembered for the version (R330, R334). -/
def Dev.mergeFailed (d : Dev) (n : Fin 16) (c : Cmd) (i : Nat) : Dev :=
  let d := (d.bump (Base.sw n) F.SW_CIP_OPEN_COUNT).tagFailed n c.space c.hash i false true false
  match (d.sw n).find c.space c.key with
  | some k => d.updSw n fun s => s.setKey { k with badSheaves := insertNat i k.badSheaves }
  | none => d

/-- The piece of a range write has switched at a swath; with the last one the write passes there (R190, R191). -/
def Dev.pieceDone (d : Dev) (n : Fin 16) (cid : Nat) (c : Cmd) (j : Nat) (old : Option KeyEnt) (newLen : Nat) : Dev :=
  let base := if j = 0 then old.map KeyEnt.charge else look n.val c.base
  let d := d.updCmd cid fun x => { x with
    pieces := put n.val (j + 1) x.pieces,
    base := match base with
      | some b => put n.val b x.base
      | none => x.base }
  if j + 1 < c.pieceCount then d
  else
    let d := d.settleAt n cid c base (some newLen)
    match (d.sw n).find c.space c.key, d.cmd cid with
    | some k, some c' => d.passChange n cid c' (d.keyResult k)
    | _, _ => d

/-- The first sheaf that a piece has to merge and that does not open, with the swath of its copy. A paired write opens
the sheaves of both copies before either switches. -/
def Dev.badEdge (d : Dev) (c : Cmd) (n : Fin 16) (edges : List Nat) (mergeOk : Bool) : Option (Fin 16 × Nat) :=
  (c.owners.findSome? fun m =>
    match (d.sw m).find c.space c.key with
    | some k => (edges.find? fun i => !d.sheafOpens k i).map fun i => (m, i)
    | none => none).orElse fun _ => if mergeOk then none else edges.head?.map fun i => (n, i)

/-- The next piece of a range write at a swath: `want` asks for the last one or for one before it. Where the other
copy has already taken the piece, the sheaves to merge have been opened (DEDUCED, log entry 32). -/
def Dev.writeRangePiece (d : Dev) (n : Fin 16) (cid : Nat) (al : Alloc) (mergeOk alone : Bool) (want : Option Bool) : Dev :=
  match d.cmd cid with
  | none => d
  | some c =>
    let j := lookD n.val 0 c.pieces
    if !c.isRange || !c.runsAt n || !d.pieceHere n c j || want == some (!decide (j + 1 = c.pieceCount)) ||
        !d.mayPass c alone || !d.swRuns n || d.awaitsCatchup c then d
    else
      match d.judge c false with
      | some r => d.refuseAt cid c n r
      | none =>
        let old := (d.sw n).find c.space c.key
        let v := (old.map (·.value)).getD []
        let data := c.pieceData j
        let off := if c.op = Op.append then v.length else c.block.offset + j * pieceBytes
        let ch := rangeChange v data off (decide (1 < c.pieceCount))
        let edges := mergeEdges off data.length v.length
        let second := !c.passed.isEmpty || c.pieces.any fun e => decide (j < e.2)
        match if second then none else d.badEdge c n edges mergeOk with
        | some (m, i) => (d.mergeFailed m c i).stopRange n cid c St.mediaAuthFail
        | none =>
          match d.switchAt n c ch al c.ver c.ver alone with
          | none => d
          | some (d, some st) => d.stopRange n cid c st
          | some (d, none) => d.pieceDone n cid c j old ch.value.length

/-! ### The write commands -/

/-- A write command of the given opcode only. -/
def Dev.ifOp (d : Dev) (cid op : Nat) (f : Dev → Dev) : Dev :=
  match d.cmd cid with
  | some c => if c.op = op then f d else d
  | none => d

/-- PUT at a swath: the index switches to the new value. -/
def doPut (n : Fin 16) (cid : Nat) (al : Alloc) (d : Dev) : Dev :=
  d.ifOp cid Op.put fun d => d.journaled n al fun d => d.writeWhole n cid al false

/-- CAS_PUT at a swath. -/
def doCasPut (n : Fin 16) (cid : Nat) (al : Alloc) (d : Dev) : Dev :=
  d.ifOp cid Op.casPut fun d => d.journaled n al fun d => d.writeWhole n cid al false

/-- PUT_STREAM at a swath: a part is answered, or the last one switches the value. -/
def doPutStream (n : Fin 16) (cid : Nat) (al : Alloc) (d : Dev) : Dev :=
  d.ifOp cid Op.putStream fun d => d.journaled n al fun d => (d.partAnswer n cid).writeWhole n cid al false

/-- WRITE_RANGE at a swath: its only or its last piece. -/
def doWriteRange (n : Fin 16) (cid : Nat) (al : Alloc) (mergeOk : Bool) (d : Dev) : Dev :=
  d.ifOp cid Op.writeRange fun d => d.journaled n al fun d => d.writeRangePiece n cid al mergeOk false (some true)

/-- APPEND at a swath. -/
def doAppend (n : Fin 16) (cid : Nat) (al : Alloc) (mergeOk : Bool) (d : Dev) : Dev :=
  d.ifOp cid Op.append fun d => d.journaled n al fun d => d.writeRangePiece n cid al mergeOk false (some true)

/-- WRITE_COMPLETE: any write whose data is buffered takes its order point (R184). -/
def doWriteComplete (n : Fin 16) (cid : Nat) (al : Alloc) (d : Dev) : Dev :=
  d.journaled n al fun d => ((d.partAnswer n cid).writeWhole n cid al false).writeRangePiece n cid al true false (some true)

/-- RANGE_PIECE_SWITCH: one piece before the last (R190), on both owners of a paired key or on the only one left
(R193). -/
def doRangePieceSwitch (n : Fin 16) (cid : Nat) (al : Alloc) (mergeOk : Bool) (d : Dev) : Dev :=
  match d.cmd cid with
  | none => d
  | some c =>
    d.journaled n al fun d => d.writeRangePiece n cid al mergeOk (d.isPaired c && c.owners.length == 1) (some false)

/-! ### Removals -/

/-- A tombstone takes the place of any other of its key. -/
def Swath.setTomb (s : Swath) (t : Tomb) : Swath :=
  let old := s.tombsOf t.space t.key
  ({ s with tombs := (s.tombs.filter fun x => !sameTomb t.space t.key x) ++ [t] }.mapNew t.units none []).freeMapUnits
    (old.flatMap Tomb.units)

/-- The tombstone of a removal that one copy made alone is marked, or no longer (R269). -/
def Swath.lagTomb (s : Swath) (space : Nat) (key : List Byte) (lag : Bool) : Swath :=
  { s with tombs := s.tombs.map fun t => if sameTomb space key t then { t with lag := lag } else t }

/-- An entry leaves the swath with a tombstone of the key removed, `of`, a REMOVE record and, on one copy alone, a PAIR_LAG record (R255,
R258, R269, R311). None while the ring has no room or no counter value is left. -/
def Dev.removeKey (d : Dev) (n : Fin 16) (k : KeyEnt) (of : Nat × List Byte) (loc tagSeq : Nat) (lag : Bool) :
    Option Dev :=
  match d.takeCount n with
  | (_, none) => none
  | (d1, some c) =>
    let d2 := (d1.bump (Base.sw n) F.SW_CIP_SEAL_COUNT).updSw n fun s =>
      let t : Tomb := { space := of.1, key := of.2, hash := k.hash, version := k.version, rseq := s.rseq,
                        loc := loc, recSeal := c, recKey := d.dataKey of.1, lag := lag }
      let was := { s.before of.1 of.2 with ent := some k }
      let s := (s.eraseKey k.space k.key).goneRec 2 of.1 k.hash loc k.loc tagSeq (k.segs false) (some was)
      let s := if lag then s.goneRec 7 of.1 k.hash loc 0 tagSeq (k.segs false) none else s
      (s.setTomb t).freeMapUnits k.units
    (d2.vcFree n k.cells).ifFits n

/-- DELETE and DISCARD_SECURE at a swath. In fallow one that finds no room in the metadata reserve waits (R310). -/
def Dev.removePoint (d : Dev) (n : Fin 16) (cid : Nat) (al : Alloc) : Dev :=
  match d.cmd cid with
  | none => d
  | some c =>
    if !(c.op == Op.delete || c.op == Op.discardSecure) || !c.runsAt n || !d.swRuns n ||
        d.awaitsCatchup c then d
    else
      match d.judge c false with
      | some r => d.refuseAt cid c n r
      | none =>
        match (d.sw n).matched c.space c.key c.hash with
        | none => d.passChange n cid c (absentResult (d.isPaired c))
        | some k =>
          let alone := decide (c.owners.length = 1)
          let one := alone || d.eitherAhead k.space k.key k.hash
          if (d.sw n).fallow && !(d.sw n).metaRoom then d
          else
          match d.removeKey n k (c.space, c.key) (al.recLoc % 2 ^ 35) c.seq (k.paired && alone) with
          | none => d
          | some d =>
            let d := (d.noteMove n c.space c.key c.hash).settleAt n cid c (some k.charge) none
            let d := if c.op = Op.discardSecure then
                d.updSw n fun s =>
                  let x : Discard := { cid := cid, space := c.space, key := c.key, hash := c.hash,
                                       version := k.version, begun := false, targets := [], wiped := false }
                  { s with discards := s.discards ++ [x] }
              else d
            d.passChange n cid c (removedResult k one)

def doDelete (n : Fin 16) (cid : Nat) (al : Alloc) (d : Dev) : Dev :=
  d.ifOp cid Op.delete fun d => d.journaled n al fun d => d.removePoint n cid al

def doDiscardSecure (n : Fin 16) (cid : Nat) (al : Alloc) (d : Dev) : Dev :=
  d.ifOp cid Op.discardSecure fun d => d.journaled n al fun d => d.removePoint n cid al

/-- A read that has passed its snapshot still pins the key at a swath. -/
def Dev.pinned (d : Dev) (n : Fin 16) (space : Nat) (key : List Byte) : Bool :=
  d.disp.cmds.any fun e =>
    isRead e.2.op && e.2.space == space && e.2.key == key &&
      (match e.2.snap with
       | some s => s.swath == n
       | none => false)

/-- A secure discard is in progress: work of its own is left, or its second message is still to be generated (R312). -/
def Dev.discarding (d : Dev) (x : Discard) : Bool :=
  !(x.wiped && x.targets.isEmpty && (d.cmd x.cid).all (·.answered))

/-- A secure discard whose command has ended, through a reset or a power loss, ends with its own work (R312). -/
def Dev.dropDiscards (d : Dev) (n : Fin 16) : Dev :=
  d.updSw n fun s => { s with discards := s.discards.filter d.discarding }

/-- SECURE_DISCARD_OVERWRITE (R312 step 2): packing items, buffer units, flush copies and cache units of
the key are overwritten once no read pins it. -/
def doSecureDiscardOverwrite (n : Fin 16) (cid : Nat) (d : Dev) : Dev :=
  match (d.sw n).discards.find? fun x => x.cid == cid && x.begun && !x.wiped with
  | none => d
  | some x =>
    if d.pinned n x.space x.key || !d.swRuns n then d
    else
      let d := d.updSw n fun s =>
        let gone := (s.units.filter fun u =>
          u.2.space == x.space && u.2.key == x.key && !u.2.early && decide (u.2.ver ≤ x.version)).map (·.1)
        { s with
          discards := s.discards.map fun y => if y.cid == cid then { y with wiped := true } else y,
          pack := s.pack.map fun p => (p.1, { p.2 with
            items := p.2.items.filter fun i => !(i.1 == x.space && i.2.1 == x.key && decide (i.2.2.1 ≤ x.version)) }),
          units := s.units.filter fun u => !gone.contains u.1,
          flushed := s.flushed.filter fun u => !gone.contains u }
      (d.vcSweep n).dropDiscards n

/-- Retained response fragments still carry the value of a key. -/
def Dev.stillRetained (d : Dev) (space : Nat) (hash : DWord) : Bool :=
  d.ses.ctx.any fun e => e.2.out.any fun f => f.about == some (space, hash)

/-- SECURE_DISCARD_COMPLETE (R312 step 4): the second message, with the same key result. -/
def doSecureDiscardComplete (cid : Nat) (d : Dev) : Dev :=
  match d.cmd cid with
  | none => d
  | some c =>
    let mine := allSwaths.flatMap fun n => (d.sw n).discards.filter fun x => x.cid == cid
    if c.op ≠ Op.discardSecure ∨ !c.started ∨ c.answered ∨ mine.isEmpty ∨
        !(mine.all fun x => x.wiped && x.targets.isEmpty) ∨ d.stillRetained c.space c.hash then d
    else
      let d := allSwaths.foldl (fun d n => d.updSw n fun s => { s with
        discards := s.discards.filter fun x => x.cid != cid }) d
      (d.latency c (some (d.slot (hashSlot c.hash)).owner)).answer cid St.ok c.result

/-! ### HOLD (R163) -/

/-- The key after a HOLD's ACTION: HELD set or cleared, or retention extended, never shortened. -/
def Cmd.holdKey (c : Cmd) (k : KeyEnt) (alone : Bool) : KeyEnt :=
  let b := c.block
  let k := { k with ahead := k.ahead || (k.paired && alone) }
  if b.aux = 1 then { k with held := true }
  else if b.aux = 2 then { k with held := false }
  else { k with retain := max k.retain b.stamp }

/-- HOLD at its order point. One on a key whose record has failed its tag acts on the entry it matched, whose record it writes anew and
whose loss stays (DESIGN CHOICE, log entry 118: R335 names no HOLD). -/
def Dev.holdPoint (d : Dev) (n : Fin 16) (cid : Nat) (al : Alloc) : Dev :=
  match d.cmd cid with
  | none => d
  | some c =>
    if c.op ≠ Op.hold ∨ !c.runsAt n ∨ !d.swRuns n ∨ d.awaitsCatchup c then d
    else
      match d.judge c false with
      | some r => d.refuseAt cid c n r
      | none =>
        match (d.sw n).matched c.space c.key c.hash with
        | none => d.passChange n cid c (absentResult (d.isPaired c))
        | some k =>
          match d.takeCount n with
          | (_, none) => d
          | (d1, some rec) =>
            let k' := { c.holdKey k (decide (c.owners.length = 1)) with
              loc := al.recLoc % 2 ^ 35, recSeal := rec, recKey := d.dataKey k.space }
            let d2 := (d1.bump (Base.sw n) F.SW_CIP_SEAL_COUNT).updSw n fun s =>
              let s := s.enter 3 c.seq (some k) k' k'.recUnits none []
              if k'.ahead && !k.ahead then s.pairRec 7 c.seq k' else s
            match d2.ifFits n with
            | none => d
            | some d => ((d.vcFreeOld n k).noteMove n c.space c.key c.hash).passChange n cid c (d.keyResult k')

/-- HOLD at a swath. -/
def doHold (n : Fin 16) (cid : Nat) (al : Alloc) (d : Dev) : Dev := d.journaled n al fun d => d.holdPoint n cid al

/-! ### Paired writes (R192, R193, R269) -/

/-- PAIR_READY_REPORT: a copy has buffered the write; with both, the switch order goes to both. -/
def doPairReadyReport (n : Fin 16) (cid : Nat) (d : Dev) : Dev :=
  match d.cmd cid with
  | none => d
  | some c =>
    if !isWrite c.op || c.midPart || !d.isPaired c || !c.runsAt n || !c.buffered n || c.ready.contains n ||
        !d.swRuns n then d
    else
      let ready := c.ready ++ [n]
      d.updCmd cid fun x => { x with
        ready := ready, ordered := x.ordered || (x.owners.length == 2 && x.owners.all ready.contains) }

/-- A swath leaves a command's owners: its slot, its place and its reservations go. -/
def Dev.loseOwner (d : Dev) (n : Fin 16) (cid : Nat) (c : Cmd) : Dev :=
  let d := if c.chargedOn.contains n then d.freeAt n cid c else d
  let d := d.updDisp fun x => { x with
    slots := if c.slotsOn.contains n then subAt n.val 1 x.slots else x.slots,
    inbound := x.inbound.filter fun e => !(e.1 == n && e.2 == cid) }
  let d := d.updSw n fun s => { s with
    haz := s.haz.filter fun h => h.item != .cmd cid,
    units := s.units.filter fun u => !(u.2.cid == some cid && u.2.early) }
  let d := d.updCmd cid fun x => { x with
    owners := x.owners.filter (· != n), slotsOn := x.slotsOn.filter (· != n),
    chargedOn := x.chargedOn.filter (· != n), keyHeld := x.keyHeld.filter (· != n),
    units := x.units.filter fun u => u.1 != n,
    snap := match x.snap with
      | some s => if s.swath = n ∧ !x.started then none else some s
      | none => none
    oneCopy := true }
  let d := if isRead c.op && !(c.owners.all c.passed.contains) then d.readChosen cid else d
  d.vcSweep n

/-- The copy that had already passed its place is left alone: it runs ahead with a PAIR_LAG record, and the
command is answered (R193, R269); while the ring is full it waits (R265). -/
def Dev.leftAlone (d : Dev) (n : Fin 16) (cid : Nat) : Dev :=
  match d.cmd cid with
  | none => d
  | some c =>
    if !isChange c.op || c.passed.isEmpty || c.started || c.owners != [n] || !c.passed.contains n then d
    else
      let d1 := d.updSw n fun s =>
        match s.find c.space c.key with
        | some k => (s.setKey { k with ahead := true }).pairRec 7 c.seq { k with ahead := true }
        | none =>
          let loc := ((s.tombsOf c.space c.key).head?.map (·.loc)).getD 0
          (s.lagTomb c.space c.key true).goneRec 7 c.space c.hash loc 0 c.seq [segGroup (hashGroup c.hash)] none
      match d1.ifFits n with
      | none => d
      | some d =>
        let result := match (d.sw n).find c.space c.key with
          | some k => d.keyResult k
          | none => c.result.take 24
        if c.op = Op.discardSecure then d.firstDiscard cid result
        else (d.latency c (some (d.slot (hashSlot c.hash)).owner)).answer cid St.ok (result.take 24)

/-- Commands held by leftAlone at a swath go on. -/
def Dev.retryAlone (d : Dev) (n : Fin 16) : Dev := (d.disp.cmds.map (·.1)).foldl (fun d cid => d.leftAlone n cid) d

/-- PAIR_ONE_COPY_SWITCH: with the other owner offline or reset, this copy switches alone (R193): its value, or
the next piece of a range write. -/
def doPairOneCopySwitch (n : Fin 16) (cid : Nat) (al : Alloc) (d : Dev) : Dev :=
  match d.cmd cid with
  | none => d
  | some c =>
    if !d.isPaired c then d
    else
      let d := (c.owners.filter fun m => m != n && !d.online m).foldl (fun d m =>
        match d.cmd cid with
        | some c => d.loseOwner m cid c
        | none => d) d
      d.journaled n al fun d => ((d.writeWhole n cid al true).writeRangePiece n cid al true true none).leftAlone n cid

/-- A place on a chain does not stand in the way of a transfer: its command has passed on every owner,
or on none, and then comes after the transfer. -/
def Dev.standsAside (d : Dev) (h : Haz) : Bool :=
  match h.item with
  | .hold _ _ _ => false
  | .cmd e =>
    match d.cmd e with
    | none => true
    | some q => (q.passed.isEmpty && q.pieces.isEmpty) || q.owners.all q.passed.contains

/-- No command on a swath's chain of a key stands before a transfer. -/
def Dev.chainClear (d : Dev) (n : Fin 16) (space : Nat) (hash : DWord) : Bool :=
  ((d.sw n).haz.filter fun h => h.space == space && h.hash == hash).all d.standsAside

/-- The lagging copy loses the key. -/
def Dev.dropAt (d : Dev) (m : Fin 16) (k : KeyEnt) : Option Dev :=
  (d.removeKey m k (k.space, k.key) ((d.sw m).freshLoc 1) 0 false).map fun d => d.updDisp fun x => { x with
    lfree := addAt m.val k.charge.1 x.lfree, pfree := addInt m.val k.charge.2 x.pfree,
    kfree := addAt m.val 1 x.kfree }

/-- PAIR_CATCHUP: the ahead swath sends the other the key's state, at its place in the key's order on
both; AHEAD clears with PAIR_DONE (R269). -/
def doPairCatchup (n : Fin 16) (space : Nat) (key : List Byte) (al : Alloc) (d : Dev) : Dev :=
  let hash := d.keyedHash space key
  let s := d.slot (hashSlot hash)
  match [s.owner, s.partner].find? fun m => m != n with
  | none => d
  | some m =>
    if !(s.owner == n || s.partner == n) || !d.online n || !d.online m || !d.chainClear n space hash ||
        !d.chainClear m space hash then d
    else
      let done : Option Dev :=
        match (d.sw n).find space key with
        | some k =>
          if !k.ahead || (d.sw n).recLost k then none
          else (d.copyTo n m k false ((d.sw n).lostSheaves k) al).map fun (d : Dev) => d.updSw n fun s =>
            (s.setKey { k with ahead := false }).pairRec 8 0 { k with ahead := false }
        | none =>
          if !((d.sw n).tombsOf space key).any (·.lag) then none
          else
            (match (d.sw m).find space key with
             | some k => d.dropAt m k
             | none => some d).map fun (d : Dev) => d.updSw n fun s =>
              (s.lagTomb space key false).goneRec 8 space hash 0 0 0 [segGroup (hashGroup hash)] none
      (done.bind fun d => d.ifFits n).getD d

/-! ### A checkpoint pass ends (R264, R265) -/

/-- The segments of the pass have a checkpoint at its RSEQ, and ring entries that no segment of theirs needs any
more are freed. -/
def Swath.endPass (s : Swath) (r : Nat) (segs : List Nat) : Swath :=
  let ck := segs.foldl (fun t g => put g r t) s.ckpt
  { s with
    pass := none, ckpt := ck,
    ring := s.ring.filter fun x => !(decide (x.rseq ≤ r) && x.segs.all fun g => decide (x.rseq ≤ lookD g 0 ck)) }

/-- A pass of checkpoints ends: room in the ring lets what waited for it go on. During a migration the pass has
written every segment in the new format (R548). -/
def Dev.passDone (d : Dev) (n : Fin 16) (r : Nat) (segs : List Nat) : Dev :=
  let again := (d.sw n).passReq
  let d := (d.updSw n fun s => s.endPass r segs).raise (privSw n 11)
  let d := (d.retryAlone n).holdsAt n
  if again then d.startPass n
  else if d.flag Base.glb F.GLB_START_STAT_MIGRATING then
    { d with boot := { d.boot with migrated := insertNat n.val d.boot.migrated } }
  else d

/-- CHECKPOINT_PASS_END; `lines` is what the read-backs of the pass's journal lines corrected (R373). -/
def doCkptPassEnd (n : Fin 16) (lines : List (Fin 8)) (d : Dev) : Dev :=
  match (d.sw n).pass with
  | none => d
  | some (r, segs) =>
    if !d.swRuns n then d
    else (lines.foldl (fun d b => d.lineReadBack n b.val) d).passDone n r segs

end Sys2Proof.Machine
end

