-- ==== Sys2Proof/Machine/Media.lean ====
section
/-!
DEFINITION. Media management (chapter "Media management"): superblocks and their streams, draining,
packing, tedding, gleaning, read escalation, program and erase failures, fallow; and the cipher's
known-answer test (R339).
-/
namespace Sys2Proof.Machine

/-! ### The modes of gleaning (R292) -/

/-- The gleaning levels stand in the order FLOOR < URGENT < START ≤ 64 (R292). -/
def Dev.gleanInOrder (d : Dev) (n : Fin 16) : Bool :=
  let b := Base.sw n
  decide (d.fld b F.SW_MED_GLEAN_FLOOR < d.fld b F.SW_MED_GLEAN_URGENT ∧
    d.fld b F.SW_MED_GLEAN_URGENT < d.fld b F.SW_MED_GLEAN_START ∧ d.fld b F.SW_MED_GLEAN_START ≤ 64)

/-- The gleaning levels START, URGENT and FLOOR; the reset values when they are out of order (R292). -/
def Dev.gleanLevels (d : Dev) (n : Fin 16) : Nat × Nat × Nat :=
  let b := Base.sw n
  if d.gleanInOrder n then (d.fld b F.SW_MED_GLEAN_START, d.fld b F.SW_MED_GLEAN_URGENT, d.fld b F.SW_MED_GLEAN_FLOOR)
  else (40, 20, 8)

/-- MODE for a number of free superblocks (Table 8-7): gleaning stops at START + 8. -/
def gleanModeOf (s u f free mode : Nat) : Nat :=
  if mode = 4 then 4
  else if free ≤ f then 3
  else if free ≤ u then 2
  else if free < s then 1
  else if mode ≠ 0 ∧ free < s + 8 then 1
  else 0

/-- Gleaning changes its mode; entering floor mode raises its source. -/
def Dev.gleanMode (d : Dev) (n : Fin 16) : Dev :=
  let (s, u, f) := d.gleanLevels n
  let w := d.sw n
  let m := gleanModeOf s u f w.freeSb w.mode
  let d := d.updSw n fun w => { w with mode := m }
  if m = 3 ∧ w.mode ≠ 3 then d.raise (privSw n 9) else d

/-- SW_MED_STAT.DIRECT (R287). -/
def Dev.direct (d : Dev) (n : Fin 16) : Bool :=
  let s := d.sw n
  (s.slcOpen.isNone && decide (24 ≤ s.slcInUse)) || decide (s.freeSb ≤ (d.gleanLevels n).2.1)

/-- Map units that name a superblock. -/
def Swath.validIn (s : Swath) (i : Nat) : List Nat :=
  (s.map.filter fun e => mapState e.2 == 1 && ppaSb (bitsOf e.2 0 30) == i).map (·.1)

/-- PFREE follows a change of the bytes the swath keeps back. -/
def Dev.pfreeBy (d : Dev) (n : Fin 16) (v : Int) : Dev :=
  d.updDisp fun x => { x with pfree := addInt n.val v x.pfree }

/-! ### Choosing superblocks (R294, end of "Superblocks and space") -/

/-- The erased superblocks with their wear, in number order. -/
def Swath.erasedSbs (s : Swath) : List (Nat × Nat) :=
  (List.range 2048).filterMap fun i =>
    let x := s.sb i
    if x.st == .erased then some (i, x.wear) else none

/-- The first entry that no later one beats. -/
def bestBy (better : Nat → Nat → Bool) : List (Nat × Nat) → Option (Nat × Nat)
  | [] => none
  | e :: t =>
    match bestBy better t with
    | none => some e
    | some b => if better b.2 e.2 then some b else some e

/-- A new SLC or host QLC superblock: the least wear, on a tie the lowest number. -/
def Swath.leastWorn (s : Swath) : Option Nat := (bestBy (fun a b => decide (a < b)) s.erasedSbs).map (·.1)

/-- Average wear of the superblocks in service. -/
def Swath.avgWear (s : Swath) : Nat :=
  ((s.sbs.filter fun e => e.2.st != .retired).map fun e => e.2.wear).sum / max 1 s.sbService

/-- The destination of gleaning (R294). -/
def Dev.gleanDest (d : Dev) (n : Fin 16) (cold : Bool) : Option Nat :=
  let s := d.sw n
  let cands := s.erasedSbs
  let most := bestBy (fun a b => decide (b < a))
  if cands.length ≤ 1 then none
  else if cold then (most cands).map (·.1)
  else
    let lim := s.avgWear + d.fld (Base.sw n) F.SW_MED_WL_SPREAD / 2
    match most (cands.filter fun e => decide (e.2 ≤ lim)) with
    | some e => some e.1
    | none => s.leastWorn

/-- Streams of a swath (end of "Superblocks and space"). -/
inductive Stream4 where
  | slc | host | glean | mdata
  deriving DecidableEq, Repr

/-- The streams a mover's units may go to; `direct` tells that a drain goes direct (R287, "Tedding", "Gleaning"). -/
def streamsFor (direct : Bool) : Mover → List Stream4
  | .drain => if direct then [.host] else [.slc]
  | .tedding => [.host, .mdata]
  | .gleaning => [.glean, .mdata]
  | .metadata => [.mdata]

def Swath.openIn (s : Swath) : Stream4 → Option Nat
  | .slc => s.slcOpen | .host => s.hostOpen | .glean => s.gleanOpen | .mdata => s.metaOpen

def Swath.setOpen (s : Swath) (t : Stream4) (v : Option Nat) : Swath :=
  match t with
  | .slc => { s with slcOpen := v } | .host => { s with hostOpen := v }
  | .glean => { s with gleanOpen := v } | .mdata => { s with metaOpen := v }

/-- The swath may open an erased superblock in a stream: the one the rules choose, and for the metadata
stream any. -/
def Dev.mayOpen (d : Dev) (n : Fin 16) (t : Stream4) (i : Nat) : Bool :=
  let s := d.sw n
  (s.sb i).st == .erased && decide (i < 2048) && (s.openIn t).isNone &&
    (match t with
     | .slc => decide (s.slcInUse < 24) && s.leastWorn == some i
     | .host => s.leastWorn == some i
     | .glean => d.gleanDest n ((s.glean.map (·.2)).getD false) == some i
     | .mdata => true)

/-- Open an erased superblock in a stream. -/
def Swath.openSb (s : Swath) (t : Stream4) (i : Nat) : Swath :=
  let x := s.sb i
  (s.setSb i { x with st := if t = .slc then .slcOpen else .qlcOpen, slc := t == .slc,
                      isMeta := t == .mdata, written := 0 }).setOpen t (some i)

/-- The stream a program on a die and superblock belongs to, with the superblock open in it: a drain goes direct when
its program started so. -/
def Dev.streamAt (d : Dev) (n : Fin 16) (by_ : Mover) (die : Fin 32) (i : Nat) : Option (Dev × Stream4) :=
  let ts := streamsFor ((look die.val (d.sw n).ops).any DieOp.direct) by_
  match ts.find? fun t => (d.sw n).openIn t == some i with
  | some t => some (d, t)
  | none =>
    match ts.find? fun t => d.mayOpen n t i with
    | some t => some (d.updSw n fun s => s.openSb t i, t)
    | none => none

/-- Data pages of a superblock: 31 of 32 dies carry map units (R299). -/
def sbPages (slc : Bool) : Nat := if slc then 126976 else 507904

/-! ### Moves (R284 to R286, R291, R304) -/

/-- A physical page address a program on a die may write: in the superblock, on the die, in range for
the mode, not on the row's parity die (R299), and not programmed since its block was erased. -/
def Swath.dstOk (s : Swath) (i : Nat) (die : Fin 32) (a : Nat) : Bool :=
  let x := s.sb i
  decide (a < 2 ^ 30) && ppaSb a == i && a / 4 % 32 == die.val && (!x.slc || decide (a / 128 % 4096 < 1024)) &&
    (ppaRow x.slc a + i) % 32 != die.val && (look a s.pages).isNone &&
    !(s.map.any fun e => mapState e.2 == 1 && bitsOf e.2 0 30 == a)

/-- The map entry of a physical page. -/
def nandEntry (a : Nat) : Word := BitVec.ofNat 32 (2 ^ 30 + a)

/-- The buffer unit a map entry names. -/
def bufferOf (w : Word) : Option Nat := if mapState w = 3 then some (bitsOf w 2 10) else none

/-- A unit that a streaming write has drained before its switch: the map names nothing yet, and its buffer unit drains
ahead of the switch (R188). -/
def Swath.streamed (s : Swath) (m : UnitMove) : Bool :=
  mapState (s.mapAt m.unit) == 0 &&
    (match bufferOf m.src with
     | some u =>
       (match look u s.units with
        | some x => x.st == .draining && x.early
        | none => false)
     | none => false)

/-- A mover's source: a drain takes DRAINING buffer units and closed packing pages, tedding the pages of its SLC
superblock, and gleaning those of its source and of superblocks with a failed block (R287, R289, R291, R303). -/
def Swath.sourceOk (s : Swath) (by_ : Mover) (w : Word) : Bool :=
  let i := ppaSb (bitsOf w 0 30)
  match by_ with
  | .drain =>
    (mapState w == 3 && ((bufferOf w).bind fun u => look u s.units).any fun x => x.st == .draining) ||
      (mapState w == 2 && (look (bitsOf w 0 15) s.pack).any PackPage.closed)
  | .tedding => mapState w == 1 && s.ted.any fun t => t.1 == i
  | .gleaning => mapState w == 1 && ((s.glean.any fun t => t.1 == i) || !(s.sb i).failed.isEmpty)
  | .metadata => true

/-- The move still stands: the map entry holds the source that the move read (R285). -/
def Swath.moveOk (s : Swath) (by_ : Mover) (m : UnitMove) : Bool :=
  decide (m.unit < 2 ^ 30) && s.sourceOk by_ m.src &&
    ((mapState m.src != 0 && s.mapAt m.unit == m.src) || s.streamed m)

/-- Keys whose data or record lies in a unit. -/
def Swath.keysIn (s : Swath) (u : Nat) : List KeyEnt := s.keys.filter fun k => k.units.contains u

/-- What the page that a move programs holds: a NAND page is copied as it is; a buffer unit or a packing page brings
the unit's bytes. Its header carries the record sequence number current now (R278; DEDUCED: of the last record). -/
def Dev.pageOf (d : Dev) (n : Fin 16) (m : UnitMove) : NandPage :=
  let s := d.sw n
  let here := s.unitPage n m.unit
  let a := bitsOf m.src 0 30
  match mapState m.src with
  | 1 =>
    match look a s.pages with
    | some p => { p with unit := m.unit, rseq := here.rseq, data := s.pageAt a }
    | none => here
  | 2 =>
    let items := ((look (bitsOf m.src 0 15) s.pack).map (·.items)).getD []
    { here with keys := (here.keys ++ items.map fun i => (i.1, d.keyedHash i.1 i.2.1)).eraseDups }
  | _ =>
    match (bufferOf m.src).bind fun u => look u s.units with
    | some x =>
      let k := (x.space, d.keyedHash x.space x.key)
      { here with keys := (here.keys ++ [k]).eraseDups, data := if here.keys.isEmpty then [] else here.data }
    | none => here

/-- Buffer units and packing pages that no map entry names any more are freed; a streaming write's unit
goes with the move of its data. -/
def Swath.freeSources (s : Swath) (ms : List UnitMove) : Swath :=
  let still (st v lo w : Nat) : Bool := s.map.any fun e => mapState e.2 == st && bitsOf e.2 lo w == v
  let bufs := ms.filterMap fun m => bufferOf m.src
  let pages := (ms.filter fun m => mapState m.src == 2).map fun m => bitsOf m.src 0 15
  let pk := s.pack.filter fun e => !(pages.contains e.1 && e.2.closed && !still 2 e.1 0 15)
  { s with
    units := s.units.filter fun e =>
      !(bufs.contains e.1 && e.2.st == .draining && !still 3 e.1 2 10),
    pack := pk }

/-- Packed values that have drained return the bytes their charge does not use (R179, R282). -/
def Dev.settlePacked (d : Dev) (n : Fin 16) (ms : List UnitMove) : Dev :=
  let us := (ms.filter fun m => mapState m.src == 2).map (·.unit)
  let ks := (d.sw n).keys.filter fun k =>
    k.packed && !k.drained && k.units.any us.contains &&
      k.units.all fun u => mapState ((d.sw n).mapAt u) == 1
  ks.foldl (fun d k =>
    let k' := { k with drained := true }
    (d.updSw n fun s => s.setKey k').pfreeBy n ((k.charge.2 : Int) - k'.charge.2)) d

/-- Bytes programmed for SW_MED_WA: a QLC byte counts 1, a byte through SLC a fifth (Table 8-8). -/
def Swath.countBytes (s : Swath) (slc glean : Bool) (k : Nat) : Swath :=
  { s with progB := s.progB + 16384 * k * (if slc then 1 else 5),
           gleanB := s.gleanB + (if glean then 16384 * k else 0) }

/-- The keys of pages enter a superblock's filter (R311). -/
def Swath.filterTakes (s : Swath) (i : Nat) (ps : List NandPage) : Swath :=
  let x := s.sb i
  s.setSb i { x with keys := (x.keys ++ ps.flatMap (·.keys)).eraseDups }

/-- A program has written its pages into a superblock, whatever becomes of the units' map entries. -/
def Dev.programmed (d : Dev) (n : Fin 16) (i : Nat) (by_ : Mover) (ms : List UnitMove) : Dev :=
  let ps := ms.map fun m => (m.dst, d.pageOf n m)
  d.updSw n fun s =>
    let x := s.sb i
    let s := (s.setSb i { x with written := x.written + ms.length }).countBytes x.slc (by_ == .gleaning) ms.length
    { s.filterTakes i (ps.map (·.2)) with pages := ps.foldl (fun t e => put e.1 e.2 t) s.pages }

/-- Units that can be read back are recorded in the map. -/
def Dev.record (d : Dev) (n : Fin 16) (by_ : Mover) (ms : List UnitMove) : Dev :=
  let good := ms.filter ((d.sw n).moveOk by_)
  let d := d.updSw n fun s =>
    (good.foldl (fun s m => s.setMap m.unit (nandEntry m.dst)) s).freeSources good
  let d := d.updDisp fun y => { y with
    cmds := y.cmds.map fun e => (e.1, { e.2 with
      units := e.2.units.filter fun u => u.1 != n || (look u.2 (d.sw n).units).isSome }) }
  d.settlePacked n good

/-- Units that waited for the next wordline can be read back. -/
def Dev.readied (d : Dev) (n : Fin 16) (p : Unready → Bool) : Dev :=
  let l := (d.sw n).unready.filter p
  l.foldl (fun d u => d.record n u.by_ [u.move])
    (d.updSw n fun s => { s with unready := s.unready.filter fun u => !p u })

/-- The units of a program wait for the next wordline on their die. -/
def Swath.waitRow (s : Swath) (i : Nat) (die : Fin 32) (row : Nat) (by_ : Mover) (ms : List UnitMove) : Swath :=
  { s with unready := s.unready ++ ms.map fun m => { sb := i, die := die.val, row := row, by_ := by_, move := m } }

/-- The last wordline of a block. -/
def lastRow : Nat := 1023

/-- A program on a die has completed: in SLC mode its units are recorded; in QLC mode those of the earlier wordlines
are, whose next wordline has its coarse pass by now, and its own with those or at once in the last wordline (R286;
DEDUCED, log entry 38: one PROGRAM_COMPLETE stands for both passes of a wordline). -/
def Dev.landed (d : Dev) (n : Fin 16) (i : Nat) (die : Fin 32) (by_ : Mover) (ms : List UnitMove) : Dev :=
  let slc := ((d.sw n).sb i).slc
  let d := d.programmed n i by_ ms
  match ms with
  | [] => d
  | m :: _ =>
    let row := ppaRow slc m.dst
    if slc then d.record n by_ ms
    else
      let d := d.readied n fun u => u.sb == i && u.die == die.val && decide (u.row < row)
      if row = lastRow then d.record n by_ ms
      else d.updSw n fun s => s.waitRow i die row by_ ms

/-- Units of one program lie in one stripe row (Table 8-2). -/
def oneRow (slc : Bool) (ms : List UnitMove) : Bool :=
  match ms with
  | [] => true
  | m :: t => t.all fun x => ppaRow slc x.dst == ppaRow slc m.dst

/-- Valid units that a failed block still holds, which gleaning copies at once (R303). -/
def Swath.stranded (s : Swath) : List Nat :=
  (s.map.filter fun e =>
    let a := bitsOf e.2 0 30
    mapState e.2 == 1 && (s.sb (ppaSb a)).failed.contains (a % 128)).map (·.1)

/-! ### Sources of gleaning, and the end of a source (R291, R293, R295, R312) -/

/-- A read still pins units of a superblock. -/
def Dev.sbPinned (d : Dev) (n : Fin 16) (i : Nat) : Bool :=
  d.disp.cmds.any fun e =>
    match e.2.snap with
    | some s => s.swath == n && s.pins.contains i
    | none => false

/-- The key of a list with the least value, the first among equals. -/
def leastOf (l : List (Nat × Nat)) : Option Nat := (bestBy (fun a b => decide (a < b)) l).map (·.1)

/-- The next source of gleaning and whether its units go to the most worn blocks (R293). In fallow it empties
superblocks with a failed block, and keeps the metadata reserve writable (R310; DESIGN CHOICE, log entry 102: when
it does the latter). -/
def Dev.gleanPick (d : Dev) (n : Fin 16) : Option (Nat × Bool) :=
  let s := d.sw n
  let full (x : Sb) : Bool := x.st == .slcFull || x.st == .qlcFull
  let q := s.sbs.filter fun e => e.2.st == .qlcFull
  let wears := q.map fun e => (e.1, e.2.wear)
  match (s.sbs.find? fun e => full e.2 && e.2.target).map (·.1) with
  | some i => some (i, false)
  | none =>
    if s.mode = 4 then
      ((q.find? fun e => !e.2.failed.isEmpty).map (·.1)).orElse (fun _ =>
        leastOf ((q.filter fun e => e.2.isMeta && decide (s.freeSb ≤ 8)).map fun e =>
          (e.1, (s.validIn e.1).length * 2 ^ 40 + e.2.order))) |>.map fun i => (i, false)
    else
    match leastOf ((s.sbs.filter fun e => full e.2 && e.2.refresh).map fun e => (e.1, e.2.order)) with
    | some i => some (i, true)
    | none =>
      let lo := (wears.map (·.2)).foldl min ((wears.head?.map (·.2)).getD 0)
      let hi := (wears.map (·.2)).foldl max 0
      if d.fld (Base.sw n) F.SW_MED_WL_SPREAD < hi - lo then (leastOf wears).map fun i => (i, true)
      else if s.mode = 0 then none
      else
        (leastOf (q.map fun e => (e.1, (s.validIn e.1).length * 2 ^ 40 + e.2.order))).map fun i => (i, false)

/-- A source none of whose units is valid or pinned enters ERASING. -/
def Dev.endSource (d : Dev) (n : Fin 16) (i : Nat) : Dev :=
  let s := d.sw n
  let x := s.sb i
  if !(x.st == .tedding || x.st == .gleaning) || !(s.validIn i).isEmpty || d.sbPinned n i then d
  else
    let d := d.bump (Base.sw n) (if x.st = .tedding then F.SW_MED_TED_SB_COUNT else F.SW_MED_GLEAN_SB_COUNT)
    d.updSw n fun s =>
      let s := s.setSb i { x with st := .erasing, erasedOn := [] }
      { s with ted := s.ted.filter fun t => t.1 != i, glean := s.glean.filter fun t => t.1 != i }

/-- The swath's housekeeping after a change: the gleaning mode, sources that are done, and the next one. -/
def Dev.mediaWork (d : Dev) (n : Fin 16) : Dev :=
  let d := d.gleanMode n
  let d := match (d.sw n).ted with
    | some t => d.endSource n t.1
    | none => d
  let d := match (d.sw n).glean with
    | some t => d.endSource n t.1
    | none => d
  if (d.sw n).glean.isSome then d
  else
    match d.gleanPick n with
    | none => d
    | some (i, cold) =>
      let d := d.updSw n fun s =>
        let x := s.sb i
        { s.setSb i { x with st := if x.st = .slcFull then .tedding else .gleaning } with
          glean := some (i, cold) }
      d.endSource n i

/-! ### DRAIN_START, PACK_PAGE_CLOSE, TED_TRIGGER -/

/-- The buffer is more than DRAIN_START percent full, or the swath is otherwise idle: nothing stands in its hazard table
and no die is at work (R187; DESIGN CHOICE, log entry 119: the spec does not say what otherwise idle means). -/
def Dev.drainDue (d : Dev) (n : Fin 16) : Bool :=
  let s := d.sw n
  decide (d.fld (Base.sw n) F.SW_BUF_CTRL_DRAIN_START * d.pw.capUnits < s.units.length * 100) ||
    (s.haz.isEmpty && s.ops.isEmpty)

/-- HELD units start draining; in floor mode drains wait (Table 8-7). -/
def Dev.drainNow (d : Dev) (n : Fin 16) : Dev :=
  if !d.swRuns n || (d.sw n).mode == 3 then d
  else d.updSw n fun s => { s with
    units := s.units.map fun u => (u.1, if u.2.st == .held then { u.2 with st := .draining } else u.2) }

/-- Units beyond N drain (R437). -/
def Swath.drainBeyond (s : Swath) (n : Nat) : Swath :=
  { s with units := s.units.map fun u =>
      (u.1, if n ≤ u.1 ∧ u.2.st = .held then { u.2 with st := .draining } else u.2) }

/-- DRAIN_START: a drain that is due starts (R187); units beyond N, filled since N fell, start theirs in any case
(R437). -/
def doDrainStart (n : Fin 16) (d : Dev) : Dev :=
  if d.drainDue n then d.drainNow n
  else if !d.swRuns n || (d.sw n).mode == 3 then d
  else d.updSw n fun s => s.drainBeyond d.pw.capUnits

/-- A packing page is padded and closed. -/
def Swath.padPage (s : Swath) (page : Nat) : Swath :=
  { s with packOpen := none, pack := adjust page (fun x => { x with used := 16384, closed := true }) s.pack }

/-- A packing page that has been open for PACK_MAX_S seconds is padded and closed (R289). -/
def doPackPageClose (n : Fin 16) (page : Nat) (d : Dev) : Dev :=
  if (d.sw n).packOpen ≠ some page then d
  else d.updSw n fun s => s.padPage page

/-- The drain queue: DRAINING buffer units, and closed packing pages, which drain like one (R289, R290). -/
def Swath.drainWaits (s : Swath) : Bool :=
  (s.units.any fun u => u.2.st == .draining) || s.pack.any fun p => p.2.closed

/-- The oldest SLC_FULL superblock. -/
def Swath.oldestSlc (s : Swath) : Option Nat :=
  leastOf ((s.sbs.filter fun e => e.2.st == .slcFull).map fun e => (e.1, e.2.order))

/-- Tedding starts (R290): by the idle condition with LO superblocks full and nothing to drain, or by
age; in fallow while an SLC superblock is full (R310). -/
def doTedTrigger (n : Fin 16) (byAge : Bool) (d : Dev) : Dev :=
  let s := d.sw n
  let busy := s.drainWaits
  if !d.swRuns n || s.ted.isSome ||
      (!byAge && !s.fallow && (busy || decide ((s.countSb fun x => x.st == .slcFull) < d.fld (Base.sw n) F.SW_MED_TED_LO))) then d
  else
    match s.oldestSlc with
    | none => d
    | some i =>
      (d.updSw n fun s =>
        let x := s.sb i
        { s.setSb i { x with st := .tedding } with ted := some (i, byAge) }).mediaWork n

/-! ### Lost units and marks for refresh (R301, R307) -/

/-- A superblock is marked for refresh. -/
def Dev.markRefresh (d : Dev) (n : Fin 16) (i : Nat) : Dev :=
  let x := (d.sw n).sb i
  if x.refresh || x.st == .erased || x.st == .retired then d
  else (d.updSw n fun s => s.setSb i { x with refresh := true }).bump (Base.sw n) F.SW_MED_REFRESH_COUNT

/-- A key part of which is lost: restored from the other copy, or entered as a deferred error (R195).
A lost record takes the whole key. -/
def Dev.keyLost (d : Dev) (n : Fin 16) (k : KeyEnt) : Dev :=
  d.valueLost n k (((d.sw n).lostSheaves k).head?.getD 0)

/-- Reads that have taken their snapshot meet the lost unit (R145). -/
def Dev.lostForReads (d : Dev) (n : Fin 16) : Dev :=
  d.updDisp fun y => { y with
    cmds := y.cmds.map fun e =>
      match e.2.snap with
      | some s =>
        if s.swath = n ∧ s.found then
          let recGone := (unitsIn 16384 (s.recLoc * 512) (sealedLen e.2.key.length s.extents.length)).any (d.sw n).isLost
          (e.1, { e.2 with snap := some { s with
            lost := ((d.sw n).lostIn s.extents).foldl (fun l i => insertNat i l) s.lost,
            recBad := s.recBad || (!e.2.started && recGone) } })
        else e
      | none => e }

/-- A map unit becomes LOST, counted and with its interrupt (Table 8-14, R313): the values in it fail, each with its
deferred error (R195, R307). -/
def Dev.unitGone (d : Dev) (n : Fin 16) (u : Nat) : Dev :=
  let ks := (d.sw n).keysIn u
  let d := (d.bump (Base.sw n) F.SW_MED_LOST_COUNT).raise (privSw n 8)
  let d := (d.updSw n fun s => s.setMap u 1).lostForReads n
  ks.foldl (fun d k => d.keyLost n k) d

/-- A map unit of an uncorrectable codeword is set to LOST and reported (R307). -/
def Dev.loseUnit (d : Dev) (n : Fin 16) (u : Nat) : Dev :=
  let i := ppaSb (bitsOf ((d.sw n).mapAt u) 0 30)
  (d.reportSw n 0x0502 3 1 i).unitGone n u

/-! ### Suspending an operation (R302, R419) -/

/-- A read meets its die at work. A suspended operation serves it, up to READS_PER reads, and then resumes; a host
read or key-record read suspends one that has run for `us` µs since it began or last resumed. -/
def Dev.suspend (d : Dev) (n : Fin 16) (die : Fin 32) (host : Bool) (us : Nat) : Dev :=
  match look die.val (d.sw n).ops with
  | none => d
  | some o =>
    let b := Base.sw n
    let most := d.fld b (if o.op = .erase then F.SW_NAND_SUSP_ERASE_MAX else F.SW_NAND_SUSP_PROG_MAX)
    if o.held then
      let o := if o.reads < d.fld b F.SW_NAND_SUSP_READS_PER && !(d.pw.lowering && o.old) then { o with reads := o.reads + 1 }
        else { o with held := false, reads := 0 }
      d.updSw n fun s => { s with ops := put die.val o s.ops }
    else if host && o.op != .read && d.flag b F.SW_NAND_SUSP_EN && decide (d.fld b F.SW_NAND_SUSP_MIN_RUN_US ≤ us) &&
        decide (o.susp < most) && !(d.pw.lowering && o.old) then
      (d.updSw n fun s => { s with
        ops := put die.val { o with held := true, susp := o.susp + 1, reads := 1 } s.ops }).bump b
        F.SW_MED_SUSPEND_COUNT
    else d

/-! ### Tokens (R423 to R425) -/

/-- Tokens a die operation holds (Table 12-2). -/
def tokenCost : NandOp → Nat
  | .read => 3 | .program => 4 | .erase => 3

/-- Tokens in use: suspended operations keep theirs (R424). -/
def Swath.tokensUsed (s : Swath) : Nat := (s.ops.map fun e => tokenCost e.2.op).sum

/-- A swath that shares the pool: online, or running a NAND die scan (R423). -/
def Dev.sharesTokens (d : Dev) (n : Fin 16) : Bool :=
  d.online n || (d.flag (Base.sw n) F.SW_TST_STAT_ACTIVE && d.fld (Base.sw n) F.SW_TST_STAT_TEST == 3)

/-- The swath's share of the effective pool: equal parts, one token of the remainder each to the lowest-numbered,
and never above 128 (R423). -/
def Dev.tokenShare (d : Dev) (n : Fin 16) : Nat :=
  let l := allSwaths.filter d.sharesTokens
  if !d.sharesTokens n then 0
  else
    let extra := b2n (decide ((l.takeWhile (· != n)).length < d.pw.effective % l.length))
    min 128 (d.pw.effective / l.length + extra)

/-- Gleaning holds less than half of the tokens that programs and erases hold. -/
def Swath.gleanBelowHalf (s : Swath) : Bool :=
  let work := s.ops.filter fun e => e.2.op != .read
  let cost (l : Tbl DieOp) : Nat := (l.map fun e => tokenCost e.2.op).sum
  let mine := cost (work.filter fun e => e.2.by_ == .mover .gleaning)
  decide (2 * mine < cost work ∨ work = [])

/-- The rank of a waiting request (R425). Gleaning beyond its half in the urgent and floor modes ranks as in
background mode (DESIGN CHOICE, log entry 98: the list gives it no rank there). An erase of SANITIZE ranks with urgent
gleaning (R573). -/
def Dev.tokenRank (d : Dev) (n : Fin 16) (w : TokenWait) : Nat :=
  let s := d.sw n
  if d.fld Base.pwr F.PWR_TOK_CTRL_AGE_MS * 1024 ≤ (d.now - w.made) * 1000 then 1
  else
    match w.ask.by_ with
    | .host => 1
    | .mover .gleaning =>
      if (s.wipe.isSome ∧ w.ask.op = .erase) ∨ ((s.mode = 2 ∨ s.mode = 3) ∧ s.gleanBelowHalf) then 2 else 5
    | .mover .drain => 3
    | .mover .metadata => 4
    | .mover .tedding => 5
    | .scan => 6

/-- The first of the requests of the best rank. -/
def Dev.firstWait (d : Dev) (n : Fin 16) : List TokenWait → Option TokenWait
  | [] => none
  | w :: t =>
    match d.firstWait n t with
    | none => some w
    | some b => if d.tokenRank n b < d.tokenRank n w then some b else some w

/-- Tedding that the idle condition started yields while units wait to drain (R290). -/
def Swath.tedYields (s : Swath) (w : TokenWait) : Bool :=
  w.ask.by_ == .mover .tedding && (s.ted.any fun t => !t.2) && s.drainWaits

/-- Requests that stand back: tedding as above, and drains in floor mode (R292). -/
def Swath.holdsBack (s : Swath) (w : TokenWait) : Bool :=
  s.tedYields w || (w.ask.by_ == .mover .drain && s.mode == 3)

/-- The request that is granted next: the first by rank among those whose die is free. While its tokens are not
free, no later one overtakes it (DESIGN CHOICE, log entry 98). -/
def Dev.grantOne (d : Dev) (n : Fin 16) : Option Dev :=
  let s := d.sw n
  (d.firstWait n (s.waits.filter fun w => (look w.ask.die.val s.ops).isNone && !s.holdsBack w)).bind fun w =>
    if s.tokensUsed + tokenCost w.ask.op ≤ d.tokenShare n then
      some (d.updSw n fun s => { s with
        waits := s.waits.erase w,
        ops := put w.ask.die.val
          { op := w.ask.op, by_ := w.ask.by_, old := false, direct := d.direct n, susp := 0, held := false,
            reads := 0 } s.ops })
    else none

/-- Grants go on while tokens are free. -/
def Dev.grant (n : Fin 16) : Nat → Dev → Dev
  | 0, d => d
  | f + 1, d =>
    match d.grantOne n with
    | none => d
    | some d => Dev.grant n f d

/-- New requests take their place behind those that wait, and what can be granted is. -/
def Dev.askTokens (d : Dev) (n : Fin 16) (asks : List TokenAsk) : Dev :=
  let d := d.updSw n fun s => { s with waits := s.waits ++ asks.map fun a => { ask := a, made := d.now } }
  Dev.grant n (d.sw n).waits.length d

/-- An operation that ends on a die is in progress there and not suspended: it was started with its tokens, or it
starts now where they are free. None where it cannot have run (R424). -/
def Dev.opRuns (d : Dev) (n : Fin 16) (die : Fin 32) (op : NandOp) (by_ : Asker) : Option Dev :=
  let runs (d : Dev) : Bool :=
    match look die.val (d.sw n).ops with
    | some o => o.op == op && !o.held
    | none => false
  if (look die.val (d.sw n).ops).isSome then (if runs d then some d else none)
  else
    let d := d.askTokens n [{ op := op, by_ := by_, die := die }]
    if runs d then some d else none

/-- The operation on a die has ended. -/
def Swath.opEnds (s : Swath) (die : Fin 32) : Swath := { s with ops := del die.val s.ops }

/-- An operation on a die ends, and its tokens go to those that wait, the requests made since the step before
among them (R425). -/
def Dev.opEnded (d : Dev) (n : Fin 16) (die : Fin 32) (asks : List TokenAsk) : Dev :=
  (d.updSw n fun s => s.opEnds die).askTokens n asks

/-! ### CODEWORD_READ and OP_RESUME (R300 to R302, R419, R424) -/

/-- The escalation of Table 8-9 as the registers allow it. -/
def Dev.decodeAllowed (d : Dev) (n : Fin 16) : Decoded → Bool
  | .hard => true
  | .retry e => decide (1 ≤ e ∧ e ≤ d.fld (Base.sw n) F.SW_NAND_LDPC_RETRY_MAX)
  | .soft => d.flag (Base.sw n) F.SW_NAND_LDPC_SOFT_EN
  | .parity => d.flag (Base.sw n) F.SW_NAND_LDPC_PARITY_EN
  | .fail => true

/-- The die has made a read: in a suspension, which takes no tokens, or with the tokens of a read (R302, R424). None
while the die is busy or the tokens are not free. -/
def Dev.readRuns (d : Dev) (n : Fin 16) (die : Fin 32) (host : Bool) (busy : Nat)
    (asks : List TokenAsk) : Option Dev :=
  let d := d.suspend n die host busy
  match look die.val (d.sw n).ops with
  | some o => if o.held then some (d.askTokens n asks) else (d.opRuns n die .read .host).map (·.opEnded n die asks)
  | none => (d.opRuns n die .read (if host then .host else .scan)).map (·.opEnded n die asks)

/-- How a codeword decoded: counters, marks for refresh, and a unit that is LOST (R300, R301, R307). -/
def Dev.decoded (d : Dev) (n : Fin 16) (unit i : Nat) (res : Decoded) : Dev :=
  let b := Base.sw n
  match res with
  | .hard => d
  | .retry e =>
    let d := d.bump b F.SW_MED_RETRY_COUNT
    if d.fld b F.SW_MED_WL_REFRESH_RETRY ≤ e then d.markRefresh n i else d
  | .soft => (d.bump b F.SW_MED_SOFT_COUNT).markRefresh n i
  | .parity => (d.bump b F.SW_MED_PARITY_COUNT).markRefresh n i
  | .fail => d.loseUnit n unit

/-- CODEWORD_READ: a codeword of a map unit has been read on its die; `busy` is how long, in µs, an operation found
at work there had run. -/
def doCodewordRead (n : Fin 16) (unit : Nat) (res : Decoded) (host : Bool) (die : Fin 32)
    (busy : Nat) (asks : List TokenAsk) (d : Dev) : Dev :=
  let w := (d.sw n).mapAt unit
  if !d.swRuns n || mapState w != 1 || bitsOf w 2 5 != die.val || !d.decodeAllowed n res then d
  else
    match d.readRuns n die host busy asks with
    | none => d
    | some d => (d.decoded n unit (ppaSb (bitsOf w 0 30)) res).mediaWork n

/-- OP_RESUME: the suspended operation has served its reads. -/
def doOpResume (n : Fin 16) (die : Fin 32) (d : Dev) : Dev :=
  d.updSw n fun s => { s with ops := adjust die.val (fun o => { o with held := false, reads := 0 }) s.ops }

/-! ### PROGRAM_COMPLETE and PROGRAM_FAIL -/

/-- A superblock whose pages are all written is full, and everything in it can be read back. -/
def Dev.fullCheck (d : Dev) (n : Fin 16) (i : Nat) : Dev :=
  let x := (d.sw n).sb i
  if (x.st == .slcOpen || x.st == .qlcOpen) && decide (sbPages x.slc ≤ x.written) then
    (d.readied n fun u => u.sb == i).updSw n fun s => s.closeSb i d.calSec false
  else d

/-- PROGRAM_COMPLETE: units that can be read back are recorded in the map, while the ring has room for their
records (R265). Gleaning copies the units stranded in failed blocks before any other (R303). -/
def doProgramComplete (n : Fin 16) (by_ : Mover) (i : Nat) (die : Fin 32) (ms : List UnitMove) (asks : List TokenAsk)
    (d : Dev) : Dev :=
  if !d.swRuns n || (by_ == .drain && (d.sw n).mode == 3) then d
  else
    match (d.opRuns n die .program (.mover by_)).bind fun d => d.streamAt n by_ die i with
    | none => d
    | some (d1, _) =>
      let stuck := (d1.sw n).stranded
      if !(ms.all fun m => (d1.sw n).dstOk i die m.dst) || !(ms.map (·.dst)).Nodup ||
          !oneRow ((d1.sw n).sb i).slc ms ||
          (by_ == .gleaning && !stuck.isEmpty && !(ms.all fun m => stuck.contains m.unit)) then d
      else
        let d2 := (d1.bump (Base.sw n) F.SW_MED_PROG_COUNT).opEnded n die asks
        match ((d2.landed n i die by_ ms).fullCheck n i).ifFits n with
        | none => d
        | some d => d.mediaWork n

/-- A block enters the bad-block list, once (R303, R305). -/
def Dev.badBlock (d : Dev) (n : Fin 16) (i plane : Nat) : Dev :=
  if ((d.sw n).sb i).failed.contains plane then d else
  let d := d.updSw n fun s =>
    let x := s.sb i
    { s.setSb i { x with failed := insertNat plane x.failed } with badBlks := s.badBlks ++ [(plane, s.blockAt i plane)] }
  (d.bump (Base.sw n) F.SW_MED_RETIRED_COUNT).raise (privSw n 7)

/-- The new superblock that takes a failed program's stream: as the stream chooses it, and for a copy by tedding
as R294 does (R303, R304). -/
def Dev.mayReopen (d : Dev) (n : Fin 16) (by_ : Mover) (t : Stream4) (i : Nat) : Bool :=
  if by_ = .tedding ∧ t = .host then (d.sw n).hostOpen.isNone && d.gleanDest n false == some i
  else d.mayOpen n t i

/-- A unit moves in a program of its own after a failure: reissued to the failed program's stream, or copied from the
failed block through the gleaning stream. `cont` tells that the program is the one of the unit before it. -/
def Dev.reissue (d : Dev) (n : Fin 16) (by_ : Mover) (t : Stream4) (m : UnitMove) (cont : Bool) : Dev :=
  let j := ppaSb m.dst
  let s := d.sw n
  let who := if s.openIn t == some j then some by_ else if s.gleanOpen == some j then some .gleaning else none
  match who with
  | none => d
  | some who =>
    let die : Fin 32 := Fin.ofNat 32 (m.dst / 4)
    if s.dstOk j die m.dst then
      let d := if cont then d else d.bump (Base.sw n) F.SW_MED_PROG_COUNT
      (d.landed n j die who [m]).fullCheck n j
    else d

/-- The program that writes a page: its superblock, die and row. -/
def progOf (s : Swath) (m : UnitMove) : Nat × Nat × Nat :=
  (ppaSb m.dst, m.dst / 4 % 32, ppaRow (s.sb (ppaSb m.dst)).slc m.dst)

/-- Moves in order, those of one program side by side counted once. -/
def Dev.reissueAll (n : Fin 16) (by_ : Mover) (t : Stream4) : Option UnitMove → List UnitMove → Dev → Dev
  | _, [], d => d
  | last, m :: ms, d =>
    let cont := last.any fun l => progOf (d.sw n) l == progOf (d.sw n) m
    Dev.reissueAll n by_ t (some m) ms (d.reissue n by_ t m cont)

/-- PROGRAM_FAIL (R303, R304): the superblock closes, the block is listed as bad, a new superblock of the
same stream opens, and the failed program's units go there; valid units of the failed block go to the
gleaning stream. What the failed program wrote stands in the closed superblock's filter (R311). -/
def doProgramFail (n : Fin 16) (by_ : Mover) (i : Nat) (die : Fin 32) (plane : Fin 4) (dest : Nat)
    (ms : List UnitMove) (d : Dev) : Dev :=
  if !d.swRuns n then d
  else
    match (d.opRuns n die .program (.mover by_)).bind fun d => d.streamAt n by_ die i with
    | none => d
    | some (d, t) =>
      let b := Base.sw n
      let d := (((d.bump b F.SW_MED_PROG_COUNT).bump b F.SW_MED_PROG_FAIL_COUNT).updSw n fun s =>
        s.closeSb i d.calSec true).opEnded n die []
      let d := d.badBlock n i (die.val * 4 + plane.val)
      let d := if d.mayReopen n by_ t dest then d.updSw n fun s => s.openSb t dest else d
      let ps := (ms.filter fun m => !(mapState m.src == 1 && ppaSb (bitsOf m.src 0 30) == i)).map (d.pageOf n)
      let d := d.updSw n fun s => s.filterTakes i ps
      (Dev.reissueAll n by_ t none ms d).mediaWork n

/-! ### ERASE_COMPLETE and ERASE_FAIL (R295, R296, R305, R306, R309) -/

/-- A target of secure discards is done (R312). -/
def Swath.targetDone (s : Swath) (i : Nat) : Swath :=
  let f (y : Discard) : Discard := { y with targets := y.targets.filter (· != i) }
  { s with discards := s.discards.map f }

/-- The superblock is dissolved (R306): its number is out of service and its good blocks become spares. -/
def Dev.dissolve (d : Dev) (n : Fin 16) (i : Nat) : Dev :=
  let last := decide ((d.sw n).sbService ≤ 1962)
  let d := d.updSw n fun s =>
    let x := s.sb i
    let good := (List.range 128).filter fun p => !x.failed.contains p
    { s.setSb i { x with st := .retired, keys := [], target := false } with
      spares := good.foldl (fun t p => put p (insertNat (s.blockAt i p) (s.sparesIn p)) t) s.spares }
  let d := d.updSw n fun s => s.targetDone i
  let d := (d.bump (Base.sw n) F.SW_MED_DISSOLVED_COUNT).pfreeBy n (-(sbBytes : Int))
  if last then d.enterFallow n 0 else d

/-- Failed blocks take spares of their planes, the lowest first (DESIGN CHOICE, log entry 108); none when a plane
has no spare. -/
def Swath.replaceAll (s : Swath) (i : Nat) : List Nat → Option Swath
  | [] => some s
  | p :: t =>
    match s.sparesIn p with
    | [] => none
    | b :: l =>
      let x := s.sb i
      Swath.replaceAll
        { s.setSb i { x with failed := x.failed.filter (· != p), replaced := x.replaced + 1 } with
          blocks := put (i * 128 + p) b s.blocks, spares := put p l s.spares } i t

/-- Superblocks that hold units of the map. -/
def Swath.sbsHolding (s : Swath) (us : List Nat) : List Nat :=
  us.filterMap fun u => if mapState (s.mapAt u) = 1 then some (ppaSb (bitsOf (s.mapAt u) 0 30)) else none

/-- A superblock other than those of the tombstone itself may still hold a record of its key (R295). -/
def Swath.tombNeeded (s : Swath) (t : Tomb) : Bool :=
  let own := s.sbsHolding t.units
  s.sbs.any fun e =>
    e.2.st != .erased && e.2.st != .retired && !own.contains e.1 && e.2.mayHold t.space t.hash

/-- Tombstones whose older records are all erased are dropped (R258, R295), and their units freed. -/
def Swath.dropOldTombs (s : Swath) : Swath :=
  let gone (t : Tomb) : Bool := !t.lag && !s.tombNeeded t
  { s with tombs := s.tombs.filter fun t => !gone t }.freeMapUnits ((s.tombs.filter gone).flatMap Tomb.units)

/-- The superblock leaves ERASING once every die has erased its blocks. In fallow a failed block dissolves it (R310;
DEDUCED, log entry 102: even where its plane has a spare). -/
def Dev.eraseEnds (d : Dev) (n : Fin 16) (i : Nat) : Dev :=
  let x := (d.sw n).sb i
  if x.erasedOn.length < 32 then d
  else
    let d := match if (d.sw n).fallow && !x.failed.isEmpty then none else (d.sw n).replaceAll i x.failed with
      | none => d.dissolve n i
      | some s =>
        let y := s.sb i
        let fresh : Sb := { Sb.blank with
          wear := y.wear + (if y.slc then 1 else 20), slc := y.slc, replaced := y.replaced }
        let s := s.setSb i fresh
        d.setSw n (s.targetDone i)
    ((d.updSw n Swath.dropOldTombs).dropDiscards n).mediaWork n

/-- The blocks of a superblock on one die are erased: their pages hold nothing. -/
def Swath.wipeDie (s : Swath) (i : Nat) (die : Fin 32) : Swath :=
  let x := s.sb i
  { s.setSb i { x with erasedOn := insertNat die.val x.erasedOn } with
    pages := s.pages.filter fun e => !(ppaSb e.1 == i && e.1 / 4 % 32 == die.val) }

/-- ERASE_COMPLETE: the blocks of one die are erased. -/
def doEraseComplete (n : Fin 16) (i : Nat) (die : Fin 32) (asks : List TokenAsk) (d : Dev) : Dev :=
  let x := (d.sw n).sb i
  if !d.swRuns n || x.st != .erasing || x.erasedOn.contains die.val then d
  else
    match d.opRuns n die .erase (.mover .gleaning) with
    | none => d
    | some d =>
      let d := ((d.bumpBy (Base.sw n) F.SW_MED_ERASE_COUNT 4).updSw n fun s => s.wipeDie i die).opEnded n die asks
      d.eraseEnds n i

/-- ERASE_FAIL: one block of the die has failed to erase; it is replaced before the superblock leaves
ERASING. A second block of the die that failed in the same erase is listed as well. -/
def doEraseFail (n : Fin 16) (i : Nat) (die : Fin 32) (plane : Fin 4) (d : Dev) : Dev :=
  let x := (d.sw n).sb i
  if !d.swRuns n || x.st != .erasing then d
  else if x.erasedOn.contains die.val then
    if x.failed.contains (die.val * 4 + plane.val) then d
    else (d.bump (Base.sw n) F.SW_MED_ERASE_FAIL_COUNT).badBlock n i (die.val * 4 + plane.val)
  else
    match d.opRuns n die .erase (.mover .gleaning) with
    | none => d
    | some d =>
      let b := Base.sw n
      let d := (((d.bumpBy b F.SW_MED_ERASE_COUNT 4).bump b F.SW_MED_ERASE_FAIL_COUNT).updSw n fun s =>
        s.wipeDie i die).opEnded n die []
      (d.badBlock n i (die.val * 4 + plane.val)).eraseEnds n i

/-! ### The cipher's known-answer test -/

/-- KAT_GO: KAT_DONE is cleared, the test runs, and its end sets KAT_DONE and KAT_PASS (R339). -/
def doKatGo (n : Fin 16) (pass : Bool) (d : Dev) : Dev :=
  let b := Base.sw n
  ((d.setFld b F.SW_CIP_STAT_KAT_DONE 1).setFld b F.SW_CIP_STAT_KAT_PASS (b2n pass))

end Sys2Proof.Machine
end

