-- ==== Sys2Proof/Machine/Recorder.lean ====
section
/-!
DEFINITION. The event recorder (chapter "Calendar time and event records"): the intake, accumulators,
intervals, records and their storage, and RECORD_READ.
-/
namespace Sys2Proof.Machine

/-! ### Histogram bins and signed values (Table 14-5) -/

/-- Edges between the bins of a code. -/
def binEdges (code : Nat) : List Int :=
  if code = 0x0201 then [10000, 20000, 30000, 40000, 50000, 60000, 70000]
  else if code = 0x0202 then [400, 500, 600, 700, 800, 900, 1000]
  else if code = 0x0203 then [300, 400, 500, 600, 700, 800, 900]
  else if code = 0x0204 then [1, 2, 4, 6, 8, 10, 12]
  else []

/-- A VALUE as the code compares it. -/
def valueOf (code v : Nat) : Int :=
  if code = 0x0202 ∨ code = 0x0203 then signed 32 v else v

/-- The bin of a VALUE: the number of edges at or below it. -/
def binOf (code v : Nat) : Nat := ((binEdges code).filter fun e => decide (e ≤ valueOf code v)).length

/-- Eight bin counts with one more in bin k, saturating. -/
def binAdd (h : List Nat) (k : Nat) : List Nat :=
  (List.range 8).map fun i => if i = k then satAdd (h.getD i 0) 1 65535 else h.getD i 0

def leastValue (code a b : Nat) : Nat := if valueOf code b < valueOf code a then b else a
def greatestValue (code a b : Nat) : Nat := if valueOf code a < valueOf code b then b else a

/-- Codes that Table 14-5 marks as markers (R606). -/
def isMarker (code : Nat) : Bool := code == 0x0001 || code == 0x0003

/-! ### Records (R506 to R509) -/

/-- Records that the region holds. -/
def recCap : Nat := 524288

/-- The first 60 bytes of a record. -/
def Rec.body (r : Rec) : List Byte :=
  be 4 r.index ++ be 2 r.code ++ be 1 r.unit ++ be 1 (r.sev + 8 * r.kind) ++ be 8 r.first ++ be 8 r.last ++
    be 4 r.count ++ be 4 r.min ++ be 4 r.max ++ be 2 r.repeats ++ be 2 r.flags ++
    r.hist.flatMap (be 2) ++ be 4 r.detail

/-- The 64 bytes of Table 14-4, the CRC last. -/
def Rec.bytes (r : Rec) : List Byte := r.body ++ be 4 (crc32c r.body).toNat

/-- The sources a stored or folded record raises (R509). -/
def Dev.recSources (d : Dev) (r : Rec) : Dev :=
  let d := if r.sev = 4 then d.raise (shared 0xA4) else d
  if 16 ≤ r.unit ∧ r.unit < 32 ∧ 2 ≤ r.sev then d.raise (shared (0x60 + (r.unit - 16))) else d

/-- A new record repeats a stored one (R507); markers never fold (R606). -/
def Rec.repeatOf (r l : Rec) : Bool :=
  r.kind != 2 && l.kind != 2 && r.code == l.code && r.unit == l.unit && r.sev == l.sev && r.kind == l.kind &&
    r.detail == l.detail &&
    (r.kind != 0 || (r.count == l.count && r.min == l.min && r.max == l.max && r.hist == l.hist))

/-- The stored record that a record of severity s replaces: the oldest of the lowest severity present. -/
def victim (s : Nat) (l : List Rec) : Option Rec :=
  let low := l.foldl (fun m r => min m r.sev) 4
  if s < low then none else l.find? fun r => r.sev == low

/-- Store a record, fold it into the last one, overwrite or discard (R507, R508). -/
def Dev.storeRec (d : Dev) (r : Rec) : Dev :=
  let e := d.evr
  let folds : Bool := match e.recs.getLast? with
    | some l => r.repeatOf l
    | none => false
  if folds then
    let f (l : Rec) : Rec := { l with
      repeats := satAdd l.repeats 1 65535, last := r.last, flags := l.flags ||| r.flags }
    let recs := e.recs.dropLast ++ (e.recs.drop (e.recs.length - 1)).map f
    (({ d with evr := { e with recs := recs } }).bump Base.cal F.EVR_REPEAT_COUNT).recSources r
  else
    let r := { r with index := e.next }
    if e.recs.length < recCap then
      ({ d with evr := { e with recs := e.recs ++ [r], next := e.next + 1 } }).recSources r
    else
      match victim r.sev e.recs with
      | none => (d.bump Base.cal F.EVR_DISCARD_COUNT).raise (shared 0xA3)
      | some v =>
        let rest := e.recs.filter fun x => x.index != v.index
        let d := { d with evr := { e with recs := rest ++ [r], next := e.next + 1, overThis := true } }
        let d := d.bump Base.cal F.EVR_OVERWRITE_COUNT
        (if e.overThis then d else d.raise (shared 0xA3)).recSources r

/-- A record of one event: kind 1 immediate, kind 2 marker. -/
def oneRec (e : Event) (kind : Nat) : Rec :=
  { index := 0, code := e.code, unit := e.unit, sev := e.sev, kind := kind, first := e.stamp,
    last := e.stamp, count := 1, min := e.value, max := e.value, repeats := 0, flags := b2n e.untr,
    hist := binAdd [] (binOf e.code e.value), detail := e.detail, bad := false }

/-- Lost events go ahead of the next record written, as event 0x0003 (R502). -/
def Dev.writeRec (d : Dev) (r : Rec) : Dev :=
  if d.evr.lostPend = 0 then d.storeRec r
  else
    let e : Event := { code := 0x0003, unit := Unit.recorder, sev := 2, value := d.evr.lostPend % 2 ^ 32,
                       detail := 0, stamp := d.cal.tick, untr := !d.trusted }
    let d := { d with evr := { d.evr with lostPend := 0 } }
    (d.storeRec (oneRec e 2)).storeRec r

/-! ### Intake and accumulators (R501 to R503) -/

def Accum.holds (e : Event) (a : Accum) : Bool := a.code == e.code && a.unit == e.unit && a.sev == e.sev

def Accum.fresh (e : Event) : Accum :=
  { code := e.code, unit := e.unit, sev := e.sev, first := e.stamp, last := e.stamp, count := 1,
    min := e.value, max := e.value, hist := binAdd [] (binOf e.code e.value), detail := e.detail,
    untr := e.untr, sat := false }

def Accum.add (e : Event) (a : Accum) : Accum :=
  let k := binOf e.code e.value
  { a with
    last := e.stamp, count := satAdd a.count 1 0xFFFFFFFF, min := leastValue e.code a.min e.value,
    max := greatestValue e.code a.max e.value, hist := binAdd a.hist k, untr := a.untr || e.untr,
    sat := a.sat || a.count == 0xFFFFFFFF || a.hist.getD k 0 == 65535 }

/-- An event leaves the intake. -/
def Dev.takeEvent (d : Dev) (e : Event) : Dev :=
  if isMarker e.code then d.writeRec (oneRec e 2)
  else if d.evr.accums.any (Accum.holds e) then
    { d with evr := { d.evr with
        accums := d.evr.accums.map fun a => if Accum.holds e a then Accum.add e a else a } }
  else if 1024 ≤ d.evr.accums.length then d.loseEvent
  else
    let d := { d with evr := { d.evr with accums := d.evr.accums ++ [Accum.fresh e] } }
    if d.fld Base.cal F.EVR_CTRL_IMM_SEV ≤ e.sev then d.writeRec (oneRec e 1) else d

/-- The recorder runs. -/
def Dev.evrRuns (d : Dev) : Bool := !d.fnFrozen .eventRecorder && !d.resetting .eventRecorder

/-- EVENT_INTAKE: the oldest event of the intake. -/
def doEventIntake (d : Dev) : Dev :=
  match d.evr.intake with
  | [] => d
  | e :: t =>
    if !d.evrRuns then d else ({ d with evr := { d.evr with intake := t } }).takeEvent e

/-! ### Intervals (R504, R505) -/

/-- The summary record of an accumulator. -/
def Accum.summary (cut : Bool) (a : Accum) : Rec :=
  { index := 0, code := a.code, unit := a.unit, sev := a.sev, kind := 0, first := a.first,
    last := a.last, count := a.count, min := a.min, max := a.max, repeats := 0,
    flags := b2n a.untr + 2 * b2n cut + 4 * b2n a.sat, hist := a.hist, detail := a.detail, bad := false }

/-- The open interval closes: every accumulator becomes a summary record. -/
def Dev.closeInterval (d : Dev) (cut : Bool) : Dev :=
  let l := d.evr.accums
  let d := l.foldl (fun d a => d.writeRec (a.summary cut)) { d with evr := { d.evr with accums := [] } }
  { d with evr := { d.evr with overThis := false } }

/-- INTERVAL_CLOSE: the interval's end has come. -/
def doIntervalClose (d : Dev) : Dev := if d.evrRuns then d.closeInterval false else d

/-- CLOSE_NOW: a write of 1 closes the open interval. -/
def doCloseNow (d : Dev) : Dev := if d.evrRuns then d.closeInterval false else d

/-- MEASURE_SAMPLE: the sampled measures of Table 14-5, once a second. -/
def doMeasureSample (mw : Nat) (ctrl nand : Int) (pkg : Nat) (d : Dev) : Dev :=
  let d := d.report 0x0201 Unit.power 0 mw 0
  let d := d.report 0x0202 Unit.power 0 (unsignedOf 32 ctrl) 0
  let d := d.report 0x0203 Unit.power 0 (unsignedOf 32 nand) pkg
  d.report 0x0204 Unit.power 0 (max d.pw.levelP d.pw.levelT) 0

/-! ### Management commands in the session engine's hands -/

/-- Run a management command once every fragment of it has committed. -/
def Dev.mgmt (d : Dev) (cid op : Nat) (f : Cmd → Ctx → Dev) : Dev :=
  match d.cmd cid with
  | none => d
  | some c =>
    if c.op ≠ op ∨ c.st ≠ .inSession ∨ !c.gotAll then d
    else
      match d.ctx c.sid with
      | none => d.abortCmd cid
      | some x => f c x

/-- RECORD_READ (R510, R511). -/
def doRecordRead (cid : Nat) (d : Dev) : Dev :=
  d.mgmt cid Op.recordRead fun c _ =>
    let from_ := fieldBe c.payload 0 4
    let most := fieldBe c.payload 4 2
    let sev := fieldBe c.payload 6 1
    if 4 < sev then d.answer cid St.malformed []
    else
      let cand := d.evr.recs.filter fun r => decide (from_ ≤ r.index) && decide (sev ≤ r.sev)
      let good := (cand.filter fun r => !r.bad).take most
      let stop := match good.getLast? with
        | some r => if good.length = most then r.index else ((cand.getLast?).map (·.index)).getD r.index
        | none => ((cand.getLast?).map (·.index)).getD 0
      let bad := (cand.filter fun r => r.bad && decide (r.index ≤ stop)).length
      let seen := d.evr.recs.filter fun r => decide (from_ ≤ r.index)
      let next := match good.getLast? with
        | some r => if good.length = most then r.index + 1 else ((seen.getLast?).map (·.index)).getD 0 + 1
        | none => min from_ d.evr.next
      let d := d.bumpBy Base.cal F.EVR_CRC_BAD_COUNT bad
      d.answer cid St.ok (be 4 next ++ be 2 good.length ++ zeros 2 ++ good.flatMap Rec.bytes)

end Sys2Proof.Machine
end

