-- ==== Sys2Proof/Machine/Calendar.lean ====
section
/-!
DEFINITION. Calendar time (chapter "Calendar time and event records"): the calendar and its steps,
time trust, TIME_SET, discipline by PTP, leap seconds and the backup cell.
-/
namespace Sys2Proof.Machine

/-! ### Steps (R500) -/

/-- Ticks of the calendar in a second. -/
def tickHz : Nat := 1024

/-- The calendar steps: the open interval closes first, and event 0x0102 tells the size. -/
def Dev.stepCal (d : Dev) (upTo cause : Nat) : Dev :=
  if upTo = d.cal.tick then d
  else
    let back := decide (upTo < d.cal.tick)
    let size := (if back then d.cal.tick - upTo else upTo - d.cal.tick) / tickHz
    let d := if d.evrRuns then d.closeInterval false else d
    let d := { d with cal := { d.cal with tick := upTo, hold := 0 } }
    d.report 0x0102 Unit.calendar 1 (min size 0xFFFFFFFF) (cause + (if back then 2 ^ 31 else 0))

/-- U in milliseconds (R488): 2 while LOCKED. -/
def Dev.uncertMs (d : Dev) : Nat := if d.trust = 2 then 2 else d.cal.uncertUs / 1000

/-- The most uncertain a trusted calendar may be, in ms. -/
def Dev.maxUncertMs (d : Dev) : Nat := d.fld Base.cal F.CAL_CTRL_MAX_UNCERT_S * 1000

def Dev.setU (d : Dev) (us : Nat) : Dev := { d with cal := { d.cal with uncertUs := us } }

/-- A slew ends. -/
def Dev.endSlew (d : Dev) : Dev :=
  ({ d with cal := { d.cal with slew := 0, slewAcc := 0 } }).setFld Base.cal F.CAL_STAT_SLEWING 0

/-! ### TIME_SET (R492, R493) -/

def doTimeSet (cid : Nat) (d : Dev) : Dev :=
  d.mgmt cid Op.timeSet fun c x =>
    let stamp := fieldBe c.payload 0 8
    let un := fieldBe c.payload 8 4
    let before := d.cal.tick
    let reply (d : Dev) (status : Nat) : Dev :=
      d.answer cid status (be 8 before ++ be 1 d.trust ++ zeros 3)
    let gap := if stamp < before then before - stamp else stamp - before
    if stamp / tickHz < 1704067200 then reply d St.malformed
    else if d.trust = 2 then reply d St.busy
    else if d.trust = 1 ∧ d.fld Base.cal F.CAL_CTRL_SET_MAX_S * tickHz < gap ∧ !d.hasPerm x 8 then
      reply d St.permission
    else
      let d := (d.endSlew.stepCal stamp 1).setFld Base.cal F.CAL_STAT_VALID 1
      let d := d.setU (un * 1000)
      let d := d.setTrust (if un ≤ d.maxUncertMs then 1 else 0)
      reply d St.ok

/-! ### Uncertainty and the journal (R486, R489) -/

/-- TRUST_UNCERT_EXCEEDED: U has passed MAX_UNCERT_S. -/
def doTrustUncertExceeded (d : Dev) : Dev :=
  if d.trusted && decide (d.maxUncertMs < d.uncertMs) then d.setTrust 0 else d

/-- CAL_JOURNAL_SAVE: the reading, its uncertainty and the trust state go to the steward journal. -/
def Dev.saveCal (d : Dev) : Dev :=
  { d with cal := { d.cal with saved := d.cal.tick, savedU := d.cal.uncertUs, savedTrust := d.trust } }

def doCalJournalSave (d : Dev) : Dev := d.saveCal

/-! ### The backup cell (R607) -/

/-- An estimate of the reserve. -/
def Dev.cellDays (d : Dev) (days : Nat) : Dev :=
  let d := d.setFld Base.cal F.CAL_CELL_DAYS (min days 255)
  d.setFld Base.cal F.CAL_STAT_CELL_LOW (b2n (decide (days < 3)))

/-- CELL_LOW_DETECT: the estimate falls below 3 days, or starts there. -/
def doCellLowDetect (days : Nat) (d : Dev) : Dev :=
  if 3 ≤ days then d
  else
    let had := d.cal.hadMin
    let d := { d.cellDays days with cal := { (d.cellDays days).cal with hadMin := true } }
    if had then d else (d.raise (shared 0xA2)).report 0x0104 Unit.calendar 2 days 0

/-- CELL_RESERVE_RECOVER: the estimate reaches 3 days, then 5. -/
def doCellReserveRecover (days : Nat) (d : Dev) : Dev :=
  if days < 3 then d
  else
    let d := d.cellDays days
    { d with cal := { d.cal with hadMin := d.cal.hadMin && decide (days < 5) } }

/-! ### Discipline by PTP (R494 to R498, R610) -/

/-- The identities that CAL_PTP_GM0 to GM3 hold, low word first. -/
def Dev.ptpGms (d : Dev) : List Nat :=
  (List.range 4).map fun k =>
    d.fld Base.cal (F.CAL_PTP_GM_WORD.at (2 * k)) + 2 ^ 32 * d.fld Base.cal (F.CAL_PTP_GM_WORD.at (2 * k + 1))

/-- A master is acceptable (R494). -/
def Dev.acceptable (d : Dev) (an : Announce) : Bool :=
  an.domain == d.fld Base.cal F.CAL_PTP_CTRL_DOMAIN && an.utcValid && an.timeTrace &&
    (d.ptpGms.all (· == 0) || d.ptpGms.contains an.gm.toNat)

/-- PTP runs on a port. -/
def Dev.ptpOn (d : Dev) (p : PortId) : Bool :=
  d.flag Base.cal F.CAL_PTP_CTRL_EN && bit (d.fld Base.cal F.CAL_PTP_CTRL_PORTS) p.idx

/-- STATE of R610. -/
def Dev.ptpState (d : Dev) : Nat := d.fld Base.cal F.CAL_PTP_STAT_STATE

def Dev.setPtpState (d : Dev) (v : Nat) : Dev := d.setFld Base.cal F.CAL_PTP_STAT_STATE v

/-- The registers show the master chosen. -/
def Dev.setMaster (d : Dev) (m : Option Master) : Dev :=
  let d := { d with cal := { d.cal with master := m, offset := if m.isNone then 0 else d.cal.offset } }
  let d := d.setFld Base.cal F.CAL_PTP_STAT_PORT ((m.map fun x => x.port.idx).getD 0)
  d.setFld Base.cal F.CAL_PTP_STAT_UTC_OFFSET ((m.map (·.utc)).getD 0)

/-- Lock is lost (R498): LOCKED gives way to FREE with U at 2. -/
def Dev.loseLock (d : Dev) : Dev :=
  let d := if d.trust = 2 then (d.setTrust 1).setU 2000 else d
  let d := { d with cal := { d.cal with inRange := 0 } }
  (d.raise (shared 0xA1)).report 0x0103 Unit.calendar 2 0 0

/-- The end of the calendar's present UTC day, in seconds. -/
def Dev.dayEnd (d : Dev) : Nat := (d.calSec / 86400 + 1) * 86400

/-- An Announce of the chosen master, or of the one that announced it, sets or withdraws the leap
second (R499). -/
def Dev.noteLeap (d : Dev) (an : Announce) : Dev :=
  let chosen := match d.cal.master with
    | some m => m.gm == an.gm
    | none => false
  if an.leap61 || an.leap59 then
    if chosen then { d with cal := { d.cal with leap := some (an.leap61, d.dayEnd), leapFrom := an.gm } } else d
  else if d.cal.leapFrom = an.gm ∧ d.cal.leap.isSome then { d with cal := { d.cal with leap := none } }
  else d

/-- PTP_ANNOUNCE (R494, R495). -/
def doPtpAnnounce (p : PortId) (an : Announce) (d : Dev) : Dev :=
  if !d.ptpOn p then d
  else if !d.acceptable an then d.noteLeap an
  else
    let mine : Master := { port := p, gm := an.gm, utc := an.utcOffset }
    let d :=
      match d.cal.master with
      | none => ((d.setMaster (some mine)).setPtpState 2)
      | some m =>
        if m.gm = an.gm then
          if p.idx ≤ m.port.idx then d.setMaster (some mine) else d
        else if an.better then
          let d := if d.ptpState = 3 then d.loseLock else { d with cal := { d.cal with inRange := 0 } }
          (d.setMaster (some mine)).setPtpState 2
        else d
    d.noteLeap an

/-- The calendar's target (R496): the counter's time less the master's UTC offset, in ticks. -/
def Dev.calTarget (d : Dev) : Nat :=
  (d.ptpNow - ((d.cal.master.map (·.utc)).getD 0) * 1000000000) * tickHz / 1000000000

/-- The counter gains lock (R497). -/
def Dev.gainLock (d : Dev) : Dev :=
  let t := d.calTarget
  let gap := if t < d.cal.tick then d.cal.tick - t else t - d.cal.tick
  let d := d.setPtpState 3
  if d.trust = 0 then
    (((d.endSlew.stepCal t 0).setFld Base.cal F.CAL_STAT_VALID 1).setTrust 2).setU 2000
  else if d.fld Base.cal F.CAL_CTRL_SET_MAX_S * tickHz < gap then
    (d.raise (shared 0xA1)).report 0x0103 Unit.calendar 2 (min (gap / tickHz) 0xFFFFFFFF) 1
  else if t < d.cal.tick then
    let d := { d with cal := { d.cal with slew := gap, slewAcc := 0 } }
    ((d.setFld Base.cal F.CAL_STAT_SLEWING 1).setTrust 2).setU 2000
  else ((d.endSlew.stepCal t 0).setTrust 2).setU 2000

/-- Set the PTP counter from nanoseconds. -/
def Dev.setPtp (d : Dev) (ns : Nat) : Dev :=
  { d with cal := { d.cal with ptpSec := ns / 1000000000, ptpNs := ns % 1000000000, ptpHalf := false } }

/-- CAL_PTP_OFFSET.NS saturates. -/
def satOffset (i : Int) : Int := max (-2147483648) (min 2147483647 i)

/-- The drive's own event message to the master, which is stamped as it leaves (R68, R70): a Delay_Req in class 7
over EtherType 0x88F7 after each Sync of the chosen master (DESIGN CHOICE, log entry 90). -/
def Dev.sendDelayReq (d : Dev) (p : PortId) : Dev :=
  d.enqueue p { via := Via.bare 7, size := 64, item := .delayReq }

/-- PTP_SYNC: a Sync of the chosen master finds the counter off by so many nanoseconds and steers it. -/
def doPtpSync (p : PortId) (offsetNs : Int) (d : Dev) : Dev :=
  match d.cal.master with
  | none => d
  | some m =>
    if m.port ≠ p ∨ !d.ptpOn p then d
    else
      let within := decide (-1000 ≤ offsetNs ∧ offsetNs ≤ 1000)
      let n := if within then min 16 (d.cal.inRange + 1) else 0
      let d := d.setPtp ((d.ptpNow : Int) - offsetNs).toNat
      let d := ({ d with cal := { d.cal with offset := satOffset offsetNs, inRange := n } }).sendDelayReq p
      if d.ptpState = 2 ∧ n = 16 then d.gainLock
      else if d.ptpState = 3 ∧ d.trust = 2 ∧ d.cal.slew = 0 ∧ d.cal.hold = 0 then
        { d with cal := { d.cal with tick := max d.cal.tick d.calTarget } }
      else d

/-- SLEW_END: the slew has reached its target. -/
def doSlewEnd (d : Dev) : Dev := if d.cal.slew = 0 then d.endSlew else d

/-- PTP_SYNC_LOSS: no Sync has come for LOSS_S seconds (R498, R610). -/
def doPtpSyncLoss (d : Dev) : Dev :=
  if d.ptpState = 3 then (d.loseLock.setMaster none).setPtpState 1
  else if d.trust = 2 then d.loseLock
  else d

/-- ANNOUNCE_TIMEOUT: the chosen master is chosen no more. -/
def doAnnounceTimeout (d : Dev) : Dev :=
  if d.cal.master.isNone then d
  else
    let d := { d with cal := { d.cal with inRange := 0 } }
    (d.setMaster none).setPtpState 1

/-- LEAP_SECOND: the last second of the announced day has come (R499). -/
def doLeapSecond (d : Dev) : Dev :=
  match d.cal.leap with
  | none => d
  | some (pos, day) =>
    if d.calSec + 1 ≠ day then d
    else
      let d := if d.evrRuns then d.closeInterval false else d
      let d := { d with cal := { d.cal with
        leap := none,
        hold := if pos then tickHz else 0,
        tick := if pos then d.cal.tick else d.cal.tick + tickHz } }
      d.report 0x0102 Unit.calendar 1 1 (2 + (if pos then 2 ^ 31 else 0))

end Sys2Proof.Machine
end

