-- ==== Sys2Proof/Machine/Reset.lean ====
section
/-!
DEFINITION. Flush, replay and resets: the power-loss flush (R205), a swath's replay (R208), per-function
resets (R406 to R408, Table 11-8) and what a reset of the whole drive leaves.
-/
namespace Sys2Proof.Machine

/-! ### Registers under the settings image (R406 step 4, R553 step 1, R554) -/

/-- The mask of the fields of a register that satisfy a test. -/
def RegDesc.mask (r : RegDesc) (p : FieldDesc → Bool) : Word :=
  r.fields.foldl (fun m f => if p f then m ||| fieldMask f.lo f.width else m) 0

/-- A field that a settings image sets: origin S or L, kept by the register. -/
def FieldDesc.bySettings (f : FieldDesc) : Bool := f.org != .h && f.acc == .rw

def clamp (lo hi v : Nat) : Nat := if v < lo then lo else if hi < v then hi else v

/-- The value a field takes from an image word: its own where the table allows it, what the owning
chapter says for MAXFRM (R25), TARGET (R390) and the thermal limits (R431), and else the value it
had (R554). -/
def FieldDesc.take (f : FieldDesc) (a old v : Nat) : Nat :=
  if 0x20400 ≤ a ∧ a < 0x20800 ∧ f.lo = 4 then (if 17 < v then 0 else v)
  else
    match f.lim with
    | none => v
    | some (lo, hi) =>
      if (a = 0x10048 ∨ ((a = 0x40008 ∨ a = 0x41008 ∨ a = 0x42008) ∧ f.lo = 0)) then clamp lo hi v
      else if lo ≤ v ∧ v ≤ hi then v else old

/-- Fields that one block of several lacks, which read 0 and ignore writes there: EEE_EN and LPI_IDLE on ports A and B
(R80), INVERT in GLB_IN_CFG_RST (Table 13-12). -/
def FieldDesc.cOnly (f : FieldDesc) (a : Nat) : Bool :=
  decide ((a = 0x40000 ∨ a = 0x41000) ∧ f.lo = 5) || decide ((a = 0x4004C ∨ a = 0x4104C) ∧ f.lo = 24) ||
    decide (a = 0x908 ∧ f.lo = 28)

/-- PWR_DROOP.HYST_PCT lies below the TRIP_PCT that an image's word gives (Table 12-8). -/
def FieldDesc.overTrip (f : FieldDesc) (a : Nat) (w : Word) : Bool :=
  let t := bitsOf w 0 4
  let trip := if 2 ≤ t ∧ t ≤ 10 then t else 5
  a == 0x10030 && f.lo == 4 && decide (trip ≤ bitsOf w 4 4)

/-- One REG entry of a settings image written over a register. -/
def RegDesc.imageWrite (r : RegDesc) (a : Nat) (old w : Word) : Word :=
  r.fields.foldl (fun x f =>
    if f.bySettings && !f.cOnly a && !f.overTrip a w then
      withBits x f.lo f.width (f.take a (bitsOf old f.lo f.width) (bitsOf w f.lo f.width))
    else x) old

/-- A register's word under the settings applied: reset values where the image names none. -/
def Dev.imageWord (d : Dev) (a : Nat) : Word :=
  match regDesc a with
  | none => 0
  | some r => d.boot.set_.regs.foldl (fun w e => if e.1 = a then r.imageWrite a w e.2 else w) (resetWord a)

/-- The registers from lo to hi go to the settings' values in their fields of origin S and L, and to
their reset values in the others, which stay as they are where `keep` holds. What each path selected and
latched there is 0 again (R601). -/
def Dev.resetBlock (d : Dev) (lo hi : Nat) (keep : Nat → Bool) : Dev :=
  let inRange (a : Nat) : Bool := decide (lo ≤ a ∧ a ≤ hi)
  let as_ := (d.regs.map (·.1) ++ d.boot.set_.regs.map (·.1)).filter inRange
  let d := { d with prs := d.prs.filter fun e => !inRange (e.1 % 0x1000000) }
  as_.foldl (fun d a =>
    match regDesc a with
    | none => d
    | some r =>
      let m := r.mask FieldDesc.bySettings
      let w := d.imageWord a
      d.setReg a (if keep a then (d.reg a &&& ~~~ m) ||| (w &&& m) else w)) d

/-- Swath registers a reset of the swath keeps: counters, the last flush, the counter's warnings, the
mark, repairs and journal wear (Table 11-8, R363). -/
def swKept (n : Fin 16) (a : Nat) : Bool :=
  let o := a - Base.sw n
  decide ((0x100 ≤ o ∧ o ≤ 0x17C) ∨ (0x540 ≤ o ∧ o ≤ 0x550) ∨ (0x680 ≤ o ∧ o ≤ 0x6B4) ∨
    (0x840 ≤ o ∧ o ≤ 0x850) ∨ (0x960 ≤ o ∧ o ≤ 0x998) ∨ (0x9A0 ≤ o ∧ o ≤ 0x9B4 ∧ o ≠ 0x9A8) ∨
    o = 0x408 ∨ o = 0x804 ∨ o = 0x904 ∨ 0xC00 ≤ o)

/-- KILL_EN and KILL_DEV take nothing while the swath owns placement slots (R366). -/
def Dev.noKill (d : Dev) (n : Fin 16) : Dev :=
  let b := Base.sw n
  if d.ownsSlots n then (d.setFld b F.SW_MEM_CHK_CTRL_KILL_EN 0).setFld b F.SW_MEM_CHK_CTRL_KILL_DEV 0 else d

/-- SW_MEM_RMP_ENT starts, on every path, as remap entry 0 of the steward journal (R363, R376). -/
def Dev.showRemap (d : Dev) (n : Fin 16) : Dev :=
  match (d.sw n).remap with
  | [] => d
  | p :: _ => [ReqPath.steward, ReqPath.session, ReqPath.notify].foldl (fun d r =>
      d.setPathReg r (Base.sw n + 0x954) (BitVec.ofNat 32 (p % 2 ^ 23 + 2 ^ 31))) d

/-! ### The flush (R205, R206, R384, R441) -/

/-- Granules of the buffer units that a flush reads in which the model holds beats. -/
def Swath.flushGranules (s : Swath) : List Nat :=
  (s.knownGranules 0xF800000 0xF87FFFF).filter fun g => s.units.any fun u => inBuffer u.1 g

/-- The flush engine reads the buffer, never halts, and lists the units and quarters of uncorrectable beats in the
header (R358). -/
def Dev.flushReads (d : Dev) (n : Fin 16) : Dev :=
  let gs := (d.sw n).flushGranules
  let bad := (gs.filter (d.granuleBad n ·)).map fun g => ((g - 0xF800000) / 512, (g - 0xF800000) % 512 / 128)
  (gs.foldl (fun d g => d.readGranule n g 6 3) d).updSw n fun s => { s with flushBad := bad.eraseDups }

/-- A swath flushes: every buffer unit, the open packing pages and the counter's high mark. TIME_US
counts units of 4 µs. -/
def Dev.flushSw (d : Dev) (n : Fin 16) (durUs : Nat) : Dev :=
  let us := (d.sw n).units.map (·.1)
  let d := (d.flushReads n).updSw n fun s => { s with flushed := us, hiMark := some s.count }
  let b := Base.sw n
  let d := d.setFld b F.SW_BUF_FLUSH_TIME_US (min 65535 (durUs / 4))
  (d.setFld b F.SW_BUF_FLUSH_UNITS us.length).setFld b F.SW_BUF_FLUSH_VALID 1

/-! ### Replay (R208, R308, R326) -/

/-- Buffer units that the map still names. -/
def Swath.namedUnits (s : Swath) : List Nat := s.map.filterMap fun e => bufferOf e.2

/-- The abandoned program's superblock is closed, and superblocks being erased start over (R308). -/
def Swath.mendSbs (s : Swath) (cut : List Nat) (nowS : Nat) : Swath :=
  let s := cut.foldl (fun s i =>
    if (s.sb i).st == .slcOpen || (s.sb i).st == .qlcOpen then s.closeSb i nowS true else s) s
  { s with sbs := s.sbs.map fun e => (e.1, if e.2.st == .erasing then { e.2 with erasedOn := [] } else e.2) }

/-- The counter resumes at the flush's high mark, or at M when the seal is not good; a mark it has come
near is written anew first. -/
def Swath.resumeCount (s : Swath) (good : Bool) : Swath :=
  let c := if good then s.hiMark.getD s.mark else s.mark
  { s with count := c, mark := if s.mark ≤ c + 2 ^ 16 then s.mark + 2 ^ 20 else s.mark, hiMark := none }

/-! ### The ring and the checkpoints at replay (R266, R267, R375) -/

/-- No checkpoint of its entry's segment includes the record. -/
def Swath.uncovered (s : Swath) (r : JRec) : Bool := r.segs.any fun g => decide (lookD g 0 s.ckpt < r.rseq)

/-- An entry that lay in an overflow bucket is on its group's chain again. -/
def Swath.relink (s : Swath) (k : KeyEnt) : Swath :=
  match k.ovf with
  | none => s
  | some b =>
    let g := hashGroup k.hash
    let l : Link := (look g s.links).getD { map := 0, chain := [] }
    { s with links := put g { map := l.map ||| ovfBits k.hash,
                              chain := if l.chain.contains b then l.chain else l.chain ++ [b] } s.links }

/-- What a record changed stands as it did before: its key and tombstones, or its map entry. -/
def Swath.undo (s : Swath) (r : JRec) : Swath :=
  match r.was with
  | some b =>
    let s := s.eraseKey b.space b.key
    let s := match b.ent with
      | some k => (s.setKey k).relink k
      | none => s
    { s with tombs := (s.tombs.filter fun t => !sameTomb b.space b.key t) ++ b.tombs }
  | none => if r.type = 9 then { s with map := putD (r.loc % 2 ^ 32) 0 (BitVec.ofNat 32 r.oldLoc) s.map } else s

/-- Replay ends at a record: it and those after it are not applied to segments whose checkpoint does not include
them (R266). -/
def Swath.cutRing (s : Swath) (bad : Nat) : Swath :=
  if !(s.ring.any fun r => r.rseq == bad) then s
  else
    let late := s.ring.filter fun r => decide (bad ≤ r.rseq)
    let s1 := (late.reverse.filter s.uncovered).foldl Swath.undo s
    let s2 := { s1 with
      ring := s.ring.filter fun r => decide (r.rseq < bad),
      rseq := max bad (1 + (s.ckpt.map (·.2)).foldl max 0) }
    (late.map fun r => hashGroup r.hash).eraseDups.foldl Swath.chainTrim s2

/-- The records that cannot be read: replay ends at the first of them, unless an unreadable line has readable
records after it; then every segment is rebuilt (R266, R375). -/
def Swath.readRing (s : Swath) (bad : List (Nat × Bool)) : Swath :=
  let hit := bad.filter fun e => s.ring.any fun r => r.rseq == e.1
  let deep := hit.any fun e => e.2 && s.ring.any fun r => decide (e.1 < r.rseq) && !(hit.any fun x => x.1 == r.rseq)
  if deep then
    { s with ring := s.ring.filter fun r => !(hit.any fun x => x.1 == r.rseq), rebuild := List.range 5632 }
  else
    match hit with
    | [] => s
    | e :: t => s.cutRing (t.foldl (fun m x => min m x.1) e.1)

/-- A tombstone wins over a key: by version, then by record number (R267). -/
def Tomb.beats (t : Tomb) (k : KeyEnt) : Bool :=
  sameTomb k.space k.key t && (decide (k.version < t.version) || (k.version == t.version && decide (k.rseq < t.rseq)))

/-- The rebuild finds no record of the key: the winning one is a tombstone, or the record cannot be read and no
ring entry names it (DESIGN CHOICE for the latter, log entry 100). -/
def Swath.notFound (s : Swath) (k : KeyEnt) : Bool :=
  ((k.segs false).any s.rebuild.contains) &&
    (s.tombs.any (Tomb.beats · k) || (s.recLost k && !s.ring.any fun r => r.hash == k.hash && r.loc == k.loc))

/-- The rebuilt segments: the keys whose record was found stand, and units that none of them names are free. -/
def Swath.rebuilt (s : Swath) : Swath :=
  let gone := s.keys.filter s.notFound
  { s.markDirty s.rebuild with
    keys := s.keys.filter fun k => !s.notFound k, rebuild := [] }.freeMapUnits (gone.flatMap KeyEnt.units)

/-! ### Step 4 of SANITIZE: how far a swath has come (R573, R574) -/

/-- Blocks of a swath: 128 planes of 2,112. -/
def swathBlocks : Nat := 270336

/-- Every die has erased as many rows, one block of each of its planes a row. -/
def wipedTo (rows : Nat) : Tbl Nat := (List.range 32).map fun k => (k, rows)

/-- Blocks that step 4 has erased. -/
def Swath.wipedBlocks (s : Swath) : Nat := ((s.wipe.getD []).map fun e => 4 * e.2).sum

/-- Step 4 goes on from the last mark, which is recorded after every 64 rows (R573, R574). -/
def Swath.toMark (s : Swath) : Swath :=
  { s with wipe := s.wipe.map fun t => wipedTo (t.foldl (fun m e => min m e.2) 2112 / 64 * 64) }

/-- What a swath holds after replay: flushed units of switched writes are HELD again, the units of
writes without a switch record are free, NAND units they drained to among them (R189), and everything the swath
kept in DRAM and SRAM starts empty. -/
def Swath.replayed (s : Swath) (good : Bool) (cut : List Nat) (nowS : Nat) (slots : List Nat) : Swath :=
  let s := s.toMark.freeMapUnits (s.map.map (·.1))
  let named := s.namedUnits
  let s := (s.mendSbs cut nowS).resumeCount good
  { s with
    unready := [],
    units := if good then (s.units.filter fun u => s.flushed.contains u.1 && named.contains u.1).map
        (fun u => (u.1, { u.2 with st := .held, cid := none })) else [],
    ueSeen := [], ueOver := s.ueSeen.foldl (fun l g => insertNat g l) s.ueOver, flushed := [], haz := [], ops := [], waits := [], vc := [], dram := [], log := [], logAt := 0, patrolNo := 0, patrolAt := 0,
    flushBad := [], cl := [], pass := none, dirty := s.dirtyAll, passReq := false, trapped := false, slotsIn := slots }

/-- Bytes and keys that admitted commands and open streams hold reserved at a swath. -/
def Dev.heldAt (d : Dev) (n : Fin 16) : Nat × Nat × Nat :=
  let cs := (d.disp.cmds.map (·.2)).filter fun c => c.chargedOn.contains n
  let ss := (d.ses.ctx.flatMap fun e => e.2.streams).filter fun s => s.owners.contains n
  ((cs.map (·.chargeL)).sum + (ss.map (·.chargeL)).sum, (cs.map (·.chargeP)).sum + (ss.map (·.chargeP)).sum,
    (cs.filter fun c => c.keyHeld.contains n).length + (ss.filter fun s => s.keyHeld.contains n).length)

/-- LFREE, PFREE and KFREE set from the swath's own state (step 6 of Table 5-7, R177, R282). Range writes in
flight settle from what stands now (R179). -/
def Dev.recount (d : Dev) (n : Fin 16) : Dev :=
  let s := d.sw n
  let (hl, hp, hk) := d.heldAt n
  let used := s.keys.map KeyEnt.charge
  let l := 15000000000000 - (used.map (·.1)).sum - hl
  let p : Int := ((s.sbService : Int) - 152) * sbBytes - (used.map (·.2)).sum - hp
  let k := 2 ^ 30 - s.keys.length - hk
  let rebase (c : Cmd) : Cmd :=
    if lookD n.val 0 c.pieces = 0 then c
    else match s.find c.space c.key with
      | some x => { c with base := put n.val x.charge c.base }
      | none => c
  d.updDisp fun x => { x with
    lfree := putD n.val 0 l x.lfree, pfree := putD n.val 0 p x.pfree, kfree := putD n.val 0 k x.kfree,
    cmds := x.cmds.map fun e => (e.1, rebase e.2) }

/-- Key slots a swath's cipher holds: the data keys that unwrap (R317, R318). -/
def Dev.keySlots (d : Dev) : List Nat :=
  d.boot.keys.filterMap fun e => if e.2.unwrapBad then none else some e.1

/-- A packed item's record and the sheaves of its value that share bytes with a 64-byte line of its page. -/
def lineHits (at_ line : Nat) (k : KeyEnt) : Bool × List Nat :=
  let hit (a n : Nat) : Bool := decide (a < line * 64 + 64 ∧ line * 64 < a + n)
  (hit at_ k.recLen, (List.range (sheavesOf k.value.length)).filter fun i => hit (at_ + k.recLen + i * 4112) 4112)

/-- Journal lines are uncorrectable: counted, with the swath's interrupt (R375, R376). -/
def Dev.jmLost (d : Dev) (n : Fin 16) (k : Nat) : Dev :=
  if k = 0 then d else (d.bumpBy (Base.sw n) F.SW_JM_UNCORR_COUNT k).raise (privSw n 5)

/-- An unreadable line of a packing page: key records and sheaves in it are MEDIA_LOST, with deferred errors
under R195 (R375). -/
def Dev.lineLost (d : Dev) (n : Fin 16) (page line : Nat) : Dev :=
  ((((look page (d.sw n).pack).map (·.items)).getD [])).foldl (fun d i =>
    match (d.sw n).find i.1 i.2.1 with
    | none => d
    | some k =>
      let (rec, sh) := lineHits i.2.2.2.1 line k
      if k.version ≠ i.2.2.1 ∨ !(k.recUnits.any fun u => (d.sw n).mapAt u == journalEntry page) ∨ (!rec ∧ sh = []) then d
      else
        let k' := { k with recBad := k.recBad || rec, gone := sh.foldl (fun l x => insertNat x l) k.gone }
        (d.updSw n fun s => s.setKey k').valueLost n k' (sh.head?.getD 0)) (d.jmLost n 1)

/-- PROGRAM_COMPLETE of a drain that could not read lines of the packing pages it moves (R375): they are found as it
reads, before the program. -/
def doDrainComplete (n : Fin 16) (by_ : Mover) (i : Nat) (die : Fin 32) (ms : List UnitMove) (asks : List TokenAsk)
    (lines : List (Nat × Nat)) (d : Dev) : Dev :=
  let read (page : Nat) : Bool := ms.any fun m => (d.sw n).mapAt m.unit == journalEntry page
  let d := if d.swRuns n then (lines.filter fun e => read e.1).foldl (fun d e => d.lineLost n e.1 e.2) d else d
  doProgramComplete n by_ i die ms asks d

/-- Values with data in buffer quarters that a flush could not save are lost (R358). -/
def Dev.flushBeats (d : Dev) (n : Fin 16) (qs : List (Nat × Nat)) : Dev :=
  qs.foldl (fun d e =>
    (((d.sw n).map.filter fun x => x.2 == bufferEntry e.1 e.2).map (·.1)).foldl (fun d u => d.unitGone n u) d) d

/-- Interrupted secure discards go on, their targets found again: those of which the first response message has been
generated or whose command has ended, and that are not done (R312, step 7 of Table 5-7). -/
def Dev.resumeDiscards (d : Dev) (n : Fin 16) : Dev :=
  let mine (x : Discard) : Bool := (d.cmd x.cid).all (·.started) && !(x.wiped && x.targets.isEmpty)
  (d.updSw n fun s => s.beginDiscards mine d.calSec).dropDiscards n

/-- A swath replays. With the flush lost, values that lay only in the buffer are lost (R207). -/
def Dev.replay (d : Dev) (n : Fin 16) (good : Bool) (cut : List Nat) (bad : List (Nat × Bool)) : Dev :=
  let d := d.updSw n fun s => s.readRing bad
  let us := (d.sw n).units
  let listed := (d.sw n).flushBad
  let inBuf := ((d.sw n).map.filter fun e => (bufferOf e.2).isSome).map (·.1)
  let d := d.updSw n fun s => s.replayed good cut (d.calSec) d.keySlots
  let b := Base.sw n
  let d := d.countMarks n (d.sw n).count
  let d := (d.setFld b F.SW_MEM_STAT_FILLED (b2n !(d.sw n).failed)).setCond b F.SW_BUF_FLUSH_LOST (b2n (!good)) (0x40 + n.val)
  let d := d.jmLost n (bad.filter (·.2)).length
  let d := if good then d.flushBeats n listed
    else inBuf.foldl (fun d u => d.unitGone n u) (d.reportSw n 0x0501 4 us.length 0)
  ((d.resumeDiscards n).gleanMode n).recount n

/-! ### Ending the commands of a swath (R210, R193) -/

/-- A read serves from its snapshot at the swath, or has no other copy. -/
def Cmd.readsAt (c : Cmd) (n : Fin 16) : Bool :=
  isRead c.op && (c.owners == [n] || (c.snap.map fun s => s.swath == n).getD false)

/-- A LIST reads slots of the swath. -/
def Cmd.listsAt (c : Cmd) (n : Fin 16) : Bool := c.op == Op.list && c.slotsOn.contains n

/-- A read whose last response message waits for sheaves not opened yet. -/
def Cmd.openingAt (c : Cmd) (n : Fin 16) : Bool :=
  match c.snap with
  | some s =>
    let (a, z) := c.range s.length
    s.swath == n && (c.op == Op.get || c.op == Op.getRange) && c.answered && !c.failed && decide (c.opened < sheafSpan a z)
  | none => false

/-- The erasure of a secure discard ends with its command, or goes on for nobody. -/
def Dev.cutDiscard (d : Dev) (cid : Nat) : Dev :=
  allSwaths.foldl (fun d n => d.dropDiscards n) (d.answer cid St.swathReset [])

/-- One command that has reached the swath. A paired one that has not taken its snapshot there goes on with its
other copy; the others end with SWATH_RESET, a GET or GET_RANGE with the failure block of R145, though its last message
has been generated while it waits for its sheaves, and a DISCARD_SECURE between its two messages in place of the
second (R162). -/
def Dev.endAt (d : Dev) (n : Fin 16) (cid : Nat) : Dev :=
  match d.cmd cid with
  | none => d
  | some c =>
    let others := c.owners.filter (· != n)
    if c.st == .complete then
      (if c.openingAt n && !(d.unsentOf c.sid cid).isEmpty then d.failRead cid St.swathReset 0xFFFFFFFF else d)
    else if c.op == Op.discardSecure && c.started && c.passed.contains n then d.cutDiscard cid
    else if c.listsAt n then d.refuse cid St.swathReset []
    else if !c.arrived.contains n then d
    else if c.readsAt n then d.failRead cid St.swathReset 0xFFFFFFFF
    else if c.passed.contains n then
      (if others.isEmpty then d.answer cid St.swathReset [] else d)
    else if !others.isEmpty then
      others.foldl (fun d m => d.leftAlone m cid) (d.loseOwner n cid c)
    else d.refuse cid St.swathReset []

/-- Open streams that have parts at the swath lose it; a stream with no other owner is abandoned. -/
def Dev.streamsLose (d : Dev) (n : Fin 16) : Dev :=
  d.ses.ctx.foldl (fun d e =>
    (e.2.streams.filter fun s => s.owners.contains n).foldl (fun d s =>
      if s.owners.all (· == n) then d.abandonStream e.1 s.space s.key
      else
        let d := d.updDisp fun x => { x with
          lfree := addAt n.val s.chargeL x.lfree, pfree := addInt n.val s.chargeP x.pfree,
          kfree := if s.keyHeld.contains n then addAt n.val 1 x.kfree else x.kfree }
        d.updCtx e.1 fun x => { x with
          streams := x.streams.map fun t =>
            if t.space == s.space && t.key == s.key then
              { t with owners := t.owners.filter (· != n), keyHeld := t.keyHeld.filter (· != n) }
            else t }) d) d

/-- Every command of the swath that is not complete ends (R210). -/
def Dev.endCommands (d : Dev) (n : Fin 16) : Dev :=
  ((d.disp.cmds.map (·.1)).foldl (fun d cid => d.endAt n cid) d).streamsLose n

/-! ### Interrupt state under a reset (R398, R399, R406) -/

/-- Every source key that has a state of its own. -/
def Dev.srcKeys (d : Dev) : List Nat := d.irq.src.map (·.1)

/-- Sources in SERVICE at a target are completed (R399). -/
def Dev.completeAt (d : Dev) (t : Nat) : Dev :=
  (d.srcKeys.filter fun k => (d.src k).service && (d.src k).by_ == t).foldl (fun d k => d.completeSrc k) d

/-- The masks the storm limiter set on a function's shared sources are lifted (R398). -/
def Dev.calmStorms (d : Dev) (f : Fn) : Dev :=
  (d.srcKeys.filter fun k => decide (k < 1024) && srcFn k == some f).foldl (fun d k =>
    d.setSrc k { d.src k with storm := false }) d

/-- A private bank is reset. -/
def Dev.clearBank (d : Dev) (t : Nat) : Dev :=
  { d with irq := { d.irq with
      src := d.irq.src.filter fun e => !(decide (priv t 0 ≤ e.1 ∧ e.1 < priv (t + 1) 0)) } }

/-! ### Admin jobs (R565, R569) -/

/-- Key of a job's record. -/
def jobKey (job target : Nat) : Nat := job * 256 + target

def Dev.job (d : Dev) (job target : Nat) : Option Job := look (jobKey job target) d.adm.jobs

def Dev.setJob (d : Dev) (job target : Nat) (x : Job) : Dev :=
  { d with adm := { d.adm with jobs := put (jobKey job target) x d.adm.jobs } }

/-- PERMILLE of a SANITIZE that erases: 20 + 980 × blocks erased ÷ blocks to erase (Table 16-2). -/
def Dev.showWipe (d : Dev) : Dev :=
  let l := allSwaths.filter fun n => (d.sw n).wipe.isSome
  match d.job 1 0 with
  | none => d
  | some j =>
    if j.st ≠ 1 ∨ l = [] then d
    else
      let erased := (l.map fun n => (d.sw n).wipedBlocks).sum
      d.setJob 1 0 { j with permille := 20 + 980 * erased / (l.length * swathBlocks) }

/-- A job ends in STATE 2 or 3: source 0xB5 and event 0x0C01 (R569). -/
def Dev.endJob (d : Dev) (job target : Nat) (ok : Bool) (result : Nat) : Dev :=
  match d.job job target with
  | none => d
  | some x =>
    let st := if ok then 2 else 3
    let d := d.setJob job target { x with
      st := st, result := result, permille := if ok then 1000 else x.permille }
    (d.raise (shared 0xB5)).report 0x0C01 Unit.steward (if ok then 1 else 2) (if job = 7 then 2 else job)
      (target + result * 256 + st * 65536)

/-! ### Per-function resets: begin (R406 steps 1 to 4) -/

/-- Number of a function in GLB_RST_SEL. -/
def fnNo (f : Fn) : Nat := (fnBit f).getD 24

/-- The freeze of a function ends with its reset (R382). -/
def Dev.thaw (d : Dev) : Fn → Dev
  | .swath n =>
    d.setFld Base.glb F.GLB_FRZ_STAT_SWATHS (setBit (d.fld Base.glb F.GLB_FRZ_STAT_SWATHS) n.val false)
  | .notification => d.setFld Base.glb F.GLB_FRZ_STAT_NOTIFICATION 0
  | .eventRecorder => d.setFld Base.glb F.GLB_FRZ_STAT_EVENT_RECORDER 0
  | _ => d

/-- A SWATH_TEST running on a swath that is reset ends in STATE 3; the test's own reset comes after its
end (Table 11-8). -/
def Dev.cutTest (d : Dev) (n : Fin 16) : Dev :=
  if d.flag (Base.sw n) F.SW_TST_STAT_ACTIVE then
    (d.setFld (Base.sw n) F.SW_TST_STAT_ACTIVE 0).endJob 4 n.val false St.swathReset
  else d

/-- The evacuation job that runs waits in PROGRESS state 4 (R274). -/
def Dev.pauseEvac (d : Dev) : Dev :=
  { d with adm := { d.adm with
      jobs := d.adm.jobs.map fun e => (e.1, if e.1 / 256 == 3 && e.2.st == 1 then { e.2 with st := 4 } else e.2) } }

/-- A swath is the subject of the evacuation job, or has part in the move of its slot. -/
def Dev.evacAt (d : Dev) (n : Fin 16) : Bool :=
  (d.adm.jobs.any fun e => e.1 / 256 == 3 && e.2.st == 1 && e.1 % 256 == n.val) || d.adm.foster == some n ||
    d.adm.slot.any fun s => (d.slot s).owner == n || (d.slot s).partner == n

/-- A swath's reset: flush, the end of its commands, its registers and private bank. -/
def Dev.resetSwath (d : Dev) (n : Fin 16) : Dev :=
  let d := d.cutTest n
  let d := if d.evacAt n then d.pauseEvac else d
  let d := (d.flushSw n 0).endCommands n
  let d := (d.completeAt (n.val + 1)).clearBank (n.val + 1)
  let b := Base.sw n
  let keepBits := d.reg (b + 0x804) &&& (fieldMask 2 2 ||| fieldMask 13 1)
  let keepMark := d.reg (b + 0x904) &&& fieldMask 1 5
  let d := ((d.resetBlock b (b + 0xC08) (swKept n)).noKill n).showRemap n
  let d := (d.setReg (b + 0x804) keepBits).setReg (b + 0x904) keepMark
  d.updSw n fun s => { s with ready := false, haz := [], ops := [], waits := [], vc := [], slotsIn := [] }

/-- The port block: its frames go, its link and pause state and levels return to their reset values;
its gate banks and counters stay. SKP frames wait in the session engine, not in the port. -/
def Dev.resetPort (d : Dev) (p : PortId) : Dev :=
  let x := d.port p
  let d := d.giveCells (x.rxq.map (·.cells)).sum (x.rxq.map (·.cells7)).sum
  let d := x.rxq.foldl (fun d e => d.dropKey e.keyNo) d
  let stays (i : TxItem) : Bool := match i with
    | .skp .. => true
    | .ackMsg .. => true
    | .refusal2 .. => true
    | .refusal4 .. => true
    | _ => false
  let d := d.updPort p fun x => { x with
    rxq := [], txq := x.txq.filter fun e => stays e.item, sentGood := [], ownPause := false,
    ownPause7 := false, ownHold := false, lowAdv := false, eeeAdv := false, stepped := false,
    stepWait := none, icmp := 0 }
  let b := Base.prt p
  let d := d.resetBlock b (b + 0x484) fun a => decide (b + 0x400 ≤ a ∧ a ≤ b + 0x47C)
  d.setFld b F.PRT_CT_LEVEL_LEVEL (d.fld b F.PRT_CT_CT_BASE * 0o11111111)

/-- Every session closes. -/
def Dev.resetSessions (d : Dev) : Dev :=
  let d := (d.ses.ctx.map (·.1)).foldl (fun d sid => d.endSession sid) d
  let d := { d with ses := { d.ses with ctx := [], opens := [], openWin := 0 } }
  d.resetBlock Base.ses (Base.ses + 0x214) fun a => decide (0x50100 ≤ a ∧ a ≤ 0x50130)

/-- The matcher's engines are loaded from the settings applied; keys in its lanes go round again. -/
def Dev.loadMatcher (d : Dev) : Dev :=
  { d with pol := { d.pol with
      tc := d.boot.set_.tcam.map fun e => (e.1, entryOfWords e.2), stage := [], shift := none,
      bankA := paLoad d.boot.set_.pattern, bankB := [], lanes := [], tkey := [], tkeyAt := 0, testing := none,
      sweep := 0 } }

def Dev.resetMatcher (d : Dev) : Dev :=
  (d.resetBlock Base.pol (Base.pol + 0x21C) fun a => decide (0x60200 ≤ a ∧ a ≤ 0x6021C)).loadMatcher

/-- A paired write whose switch order has not been sent. -/
def Cmd.unordered (c : Cmd) : Bool :=
  isChange c.op && decide (1 < c.owners.length) && !c.ordered && c.passed.isEmpty

/-- The dispatcher: its waiting commands and unordered paired writes end with BUSY, the front cache and
the table of R75 empty, the space counts are taken again, and evacuations wait. -/
def Dev.resetDispatcher (d : Dev) : Dev :=
  let gone := d.disp.cmds.filter fun e =>
    e.2.st == .waitRes || (e.2.st != .complete && e.2.st != .inSession && e.2.unordered)
  let d := gone.foldl (fun d e => d.refuse e.1 St.busy []) d
  let d := d.fcEmpty.updDisp fun x => { x with
    inv := 0, invTab := [], fcBlock := !d.io.applying.isEmpty, fills := [], wait := x.wait.filter fun c => !(gone.any fun e => e.1 == c) }
  let d := d.resetBlock (Base.dsp + 0x100) (Base.dsp + 0x2FFC) fun a =>
    decide (a = 0x70208 ∨ a = 0x70308 ∨ (0x70808 ≤ a ∧ a ≤ 0x70810) ∨ 0x71100 ≤ a)
  (allSwaths.foldl (fun d n => d.recount n) d).pauseEvac

/-- NOTIFICATION: sources in SERVICE at target 17 are completed and counted (R405), its bank is reset. -/
def Dev.resetNotify (d : Dev) : Dev :=
  let d := d.irq.out.foldl (fun d o =>
    (d.completeSrc (srcOfId 17 o.src)).bump Base.irq F.IRQ_NTF_TIMEOUT_COUNT) d
  let d := (d.ses.ctx.map (·.1)).foldl (fun d sid => d.dropNotifies sid) { d with irq := { d.irq with out := [] } }
  let d := (d.completeAt 17).clearBank 17
  let d := d.resetBlock 0x20020 0x20044 fun _ => false
  d.resetBlock 0x20200 0x202FC fun _ => false

/-- What the intake holds is taken. -/
def Dev.takeIntake (d : Dev) : Dev :=
  d.evr.intake.foldl (fun d e => d.takeEvent e) { d with evr := { d.evr with intake := [] } }

/-- EVENT_RECORDER: what the intake holds is taken, the open interval is closed and written, and then
the engine is reset. -/
def Dev.resetRecorder (d : Dev) : Dev :=
  let d := d.takeIntake.closeInterval false
  d.resetBlock 0x30100 0x30130 fun a => decide (0x30120 ≤ a ∧ a ≤ 0x30130)

/-- GLB_RST_INFO of a function. -/
def Dev.countReset (d : Dev) (f : Fn) (cause : Nat) : Dev :=
  let i := (look (fnNo f) d.irq.rst).getD { count := 0, cause := 0, us := 0 }
  let x := { i with count := satAdd i.count 1 65535, cause := cause }
  { d with irq := { d.irq with rst := put (fnNo f) x d.irq.rst } }

/-- The steward's resets of a swath within the last 600 s; a FUNCTION_RESET zeroes the count (R589). -/
def Dev.noteSteward (d : Dev) (f : Fn) (cause : Nat) : Dev :=
  match f with
  | .swath n =>
    let nowS := d.now / 1024
    if cause = 0 then
      let d := { d with irq := { d.irq with steps := del n.val d.irq.steps } }
      d.updSw n fun s => { s with leftOff := false }
    else
      let old := ((look n.val d.irq.steps).getD []).filter fun t => decide (nowS < t + 600)
      { d with irq := { d.irq with steps := put n.val (old ++ [nowS]) d.irq.steps } }
  | _ => d

/-- A function's reset begins: steps 1 to 4 of R406. -/
def Dev.beginReset (d : Dev) (f : Fn) (cause : Nat) : Dev :=
  match fnBit f with
  | none => d
  | some k =>
    let d := (d.countReset f cause).noteSteward f cause
    let d := match f with
      | .swath n => d.resetSwath n
      | .port p => d.resetPort p
      | .sessionEngine => d.resetSessions
      | .policyMatcher => d.resetMatcher
      | .dispatcher => d.resetDispatcher
      | .notification => d.resetNotify
      | .eventRecorder => d.resetRecorder
      | .drive => d
    let d := (d.thaw f).calmStorms f
    d.setFld Base.glb F.GLB_RST_STAT_ACTIVE (setBit (d.fld Base.glb F.GLB_RST_STAT_ACTIVE) k true)

/-! ### A reset of the whole drive (R381, R440, Table 11-8 DRIVE) -/

/-- What of a register journal memory, the fuses or the calendar domain keep through a reset of the
drive: power-fail and start counts, the calendar's own registers, the count of placement changes (R249), the last flush, the counter's
warnings, the device mark and soft repairs. -/
def keptByJournal (a : Nat) : Word :=
  if a = 0x10058 ∨ a = 0x10C ∨ a = 0x30004 ∨ a = 0x30014 ∨ a = 0x70308 then 0xFFFFFFFF
  else if 0x100000 ≤ a ∧ a < 0x200000 then
    let o := a % 0x10000
    if o = 0x408 ∨ o = 0x990 then 0xFFFFFFFF
    else if o = 0x804 then fieldMask 2 2 ||| fieldMask 13 1
    else if o = 0x904 then fieldMask 1 5
    else 0
  else 0

/-- The registers after a reset of the drive, before the settings are applied. -/
def keptRegs (t : Tbl Word) : Tbl Word :=
  t.foldl (fun r e => putD e.1 (resetWord e.1) (e.2 &&& keptByJournal e.1) r) []

/-- What a swath keeps without power: NAND and journal memory. The sessions that wrote its values are gone (R198). -/
def Swath.unpowered (s : Swath) : Swath :=
  { s.toMark with
    keys := s.keys.map fun k => { k with sid := k.sid % 65536 + 65536 }, unready := [],
    ready := false, haz := [], ops := [], waits := [], vc := [], dram := [], log := [], logAt := 0, patrolNo := 0, patrolAt := 0, cl := [],
    ueSeen := [], ueOver := [], pass := none, dirty := s.dirtyAll, passReq := false, trapped := false, slotsIn := [],
    failed := false, leftOff := false }

/-- Range writes that stood with pieces applied are entered in the deferred-error log (R209). -/
def Dev.deferRanges (d : Dev) : Dev :=
  (d.disp.cmds.filter fun e => e.2.isRange && e.2.st != .complete &&
      decide (0 < e.2.goodBytes) && e.2.passed.isEmpty).foldl
    (fun d e => d.deferError e.2.tag St.swathReset e.2.seq e.2.hash e.2.space e.2.goodBytes e.2.sid) d

/-- A copy of a paired key that lags behind another is marked for repair (R194): the leading copy, by version or by the
pieces of a range write that it has, gets AHEAD, or, where a removal leads, its tombstone is marked. -/
def Dev.markLag (d : Dev) (n : Fin 16) : Dev :=
  d.updSw n fun s => { s with
    keys := s.keys.map fun k =>
      let o := d.slot (hashSlot k.hash)
      let m := if o.owner = n then o.partner else o.owner
      if !k.paired || !(o.owner == n || o.partner == n) || o.owner == o.partner then k
      else
        let lags : Bool := match (d.sw m).find k.space k.key with
          | some x => decide (x.version < k.version ∨ (x.version = k.version ∧ x.parts < k.parts))
          | none => !((d.sw m).tombs.any fun t => t.space == k.space && t.key == k.key && decide (k.version ≤ t.version))
        if lags then { k with ahead := true } else k,
    tombs := s.tombs.map fun t =>
      let o := d.slot (hashSlot t.hash)
      let m := if o.owner = n then o.partner else o.owner
      if !(o.owner == n || o.partner == n) || o.owner == o.partner then t
      else
        let leads : Bool := match (d.sw m).find t.space t.key with
          | some x => x.paired && decide (x.version < t.version) && (s.find t.space t.key).isNone
          | none => false
        if leads then { t with lag := true } else t }

/-- After replay, the copies of a swath's paired keys are compared at the swath and at those it shares keys with. -/
def Dev.markLags (d : Dev) (n : Fin 16) : Dev :=
  (allSwaths.filter fun m => m == n || (List.range 256).any fun s =>
    let x := d.slot s
    (x.owner == n && x.partner == m) || (x.owner == m && x.partner == n)).foldl (fun d m => d.markLag m) d

/-- The drive goes down, its swaths having flushed: what only power kept is gone. -/
def Dev.goDown (d : Dev) (cause : Nat) : Dev :=
  let was := d.disp.defNo
  let d := d.deferRanges
  let z : Dev := .reset
  let jobs := d.adm.jobs.map fun e => (e.1, if e.2.st == 1 then { e.2 with st := 4 } else e.2)
  let disp : Disp := { Disp.reset with
    nextCid := d.disp.nextCid, admNum := d.disp.admNum, defNo := d.disp.defNo, secret := d.disp.secret,
    defDue := d.disp.defDue || d.disp.defNo != was, plc := d.disp.plc, defLog := d.disp.defLog.map fun e => (e.1, { e.2 with orphan := true }) }
  let cal : Cal := { d.cal with master := none, inRange := 0, offset := 0, ptpSec := 0, ptpNs := 0, ptpHalf := false }
  let evr : Recorder := { d.evr with intake := [], lostPend := 0, overThis := false }
  let pw : Power := { Power.reset with
    pfCause := d.pw.pfCause, pfPend := d.pw.pfPend, stopped := d.pw.stopped, temp := d.pw.temp }
  let inputs : Io := if cause = 1 then { Io.reset with rst := { InputSt.reset with stuck := d.io.rst.stuck } }
    else { Io.reset with holdA := d.io.holdA, holdB := d.io.holdB, rst := d.io.rst }
  let io : Io := { inputs with
    hold := d.io.hold, holdReset := d.io.holdReset, faultN := d.io.faultN, upHere := d.io.upHere, dnHere := d.io.dnHere }
  let boot : Boot := { d.boot with
    running := false, restart := false, cause := cause, xfer := none, inv := [], chainOut := [], chainSeen := [], warned := false }
  let xferJob := if d.boot.xfer.isSome then del (5 * 256) jobs else jobs
  let adm : Admin := { d.adm with jobs := xferJob }
  { z with
    regs := keptRegs (d.regs.filter fun e => keptByJournal e.1 != 0), now := d.now, freeNo := d.freeNo, disp := disp, cal := cal, evr := evr,
    sws := d.sws.map (fun s => { s.unpowered with holdDue := if cause = 1 then [] else s.holdDue }), pw := pw, io := io, boot := boot, adm := adm }

/-- Every swath flushes once: one whose reset flush has sealed writes nothing further (R441), and one
that has not started since the last flush holds nothing new. -/
def Dev.flushAll (d : Dev) (durUs : Nat) : Dev :=
  allSwaths.foldl (fun d n =>
    if d.resetting (.swath n) || (!(d.sw n).ready && (d.sw n).hiMark.isSome) then d else d.flushSw n durUs) d

/-! ### A rebuild ends (R267) -/

/-- REBUILD_END: the rebuilt segments stand, and the swath can be ready. -/
def doRebuildEnd (n : Fin 16) (d : Dev) : Dev :=
  let b := Base.sw n
  if !d.flag b F.SW_IDX_REBUILD_ACTIVE then d
  else
    let d := (d.updSw n Swath.rebuilt).recount n
    ((d.setFld b F.SW_IDX_REBUILD_ACTIVE 0).setFld b F.SW_IDX_REBUILD_PERMILLE 1000).raise (privSw n 12)

/-- A reset of the whole drive, every swath flushing first; it starts again at the next power-good. -/
def Dev.driveReset (d : Dev) (cause : Nat) : Dev := ((d.flushAll 0).saveCal).goDown cause

/-- The drive executes commands: it has started and no power-fail stops it. -/
def Dev.alive (d : Dev) : Bool := d.boot.running && !d.pw.pfActive

end Sys2Proof.Machine
end

