-- ==== Sys2Proof/Machine/MemProt.lean ====
section
/-!
DEFINITION. Memory protection and repair (chapter 10): the DRAM code, the patrol and its logs, device
marking, uncorrectable errors in DRAM and SRAM, page retirement and journal wear-levelling.
-/
namespace Sys2Proof.Machine

/-- The patrol reads the granules from a to z. -/
def Dev.patrolSpan (d : Dev) (n : Fin 16) (a z : Nat) : Dev :=
  ((d.sw n).knownGranules a z).foldl (fun d g => d.readGranule n g 5 srcPatrol) d

/-- A patrol pass ends. -/
def Dev.patrolNext (d : Dev) (n : Fin 16) : Dev := d.updSw n fun s => { s with patrolNo := s.patrolNo + 1 }

/-- The last granule of the channel. -/
def lastGranule : Nat := 2 ^ 28 - 1

/-- PATROL_TICK: bits of a beat may have flipped, and the patrol reads on in address order from where it stands up to the
granule named, and with `passEnd` to the end of the channel. It logs what it finds and changes nothing else (R349). -/
def doPatrolTick (n : Fin 16) (granule : Nat) (beat : Nat) (at_ : DramAt) (err : List Byte)
    (passEnd : Bool) (d : Dev) : Dev :=
  let b := Base.sw n
  let g := granule % 2 ^ 28
  if d.fld b F.SW_MEM_CTRL_PATROL_H = 0 || !d.swRuns n || !(d.sw n).liesAt g at_ then d
  else
    let d := d.updSw n fun s => s.upset g beat err
    let p := (d.sw n).patrolAt
    let d := if p ≤ g then d.patrolSpan n p g else ((d.patrolSpan n p lastGranule).patrolNext n).patrolSpan n 0 g
    let ends := passEnd || g == lastGranule
    let d := if ends then (d.patrolSpan n (g + 1) lastGranule).patrolNext n else d
    let next := if ends then 0 else g + 1
    (d.updSw n fun s => { s with patrolAt := next }).setFld b F.SW_MEM_STAT_PATROL_PCT (next * 100 / 2 ^ 28)

/-- UNMARK_WRITE: the mark is cleared only while the swath owns no slots (R352). -/
def doUnmarkWrite (n : Fin 16) (d : Dev) : Dev :=
  let b := Base.sw n
  if d.ownsSlots n then d else (d.setFld b F.SW_MEM_STAT_MARKED 0).setFld b F.SW_MEM_STAT_MARK_DEV 0

/-- CL_CLEAR: the count-and-log table empties (R353). -/
def doClClear (n : Fin 16) (d : Dev) : Dev :=
  let b := Base.sw n
  let d := (d.setFld b F.SW_MEM_CL_COUNT_COUNT 0).setFld b F.SW_MEM_CL_COUNT_OVF 0
  d.updSw n fun s => { s with cl := [] }

/-! ### Traps and uncorrectable errors (R355 to R357, Table 10-1) -/

/-- A trial of the firmware fails a try when a steward trap or window violation resets the drive
(R542). -/
def Dev.failTry (d : Dev) : Dev :=
  let trial := if d.boot.fwSlotB then d.boot.fwB == .trial else d.boot.fwA == .trial
  if trial then { d with boot := { d.boot with tries := d.boot.tries + 1 } } else d

/-- A reset of the drive by its own steward. -/
def Dev.stewardFault (d : Dev) : Dev := d.failTry.driveReset 2

/-- The steward resets a swath that is not already under reset. -/
def Dev.stewardReset (d : Dev) (n : Fin 16) (cause : Nat) : Dev :=
  if d.resetting (.swath n) then d else d.beginReset (.swath n) cause

/-- Message of the failure that ends a response whose fragment can no longer be read (R145, Tables 10-1 and 10-2): a GET or
GET_RANGE carries the failure block, other responses nothing (DESIGN CHOICE for those, log entry 121). -/
def OutFrag.lostBlock (f : OutFrag) : List Byte :=
  match f.dataAt with
  | some k => failureBlock f.seq f.idx (k / 4096) k
  | none => []

/-- A retained fragment of a response cannot be read: the response ends under R145 with MEDIA_LOST, at the first sheaf of
the fragment, whether or not its command still stands. -/
def Dev.retentionLost (d : Dev) (sid seq idx : Nat) : Dev :=
  match (d.ctx sid).bind fun x => x.out.find? fun f => f.seq == seq && f.idx == idx with
  | none => d
  | some f =>
    match f.reqSeq with
    | none => d
    | some q =>
      let d := d.cutFrags sid f
      match f.cid.bind d.cmd with
      | some c =>
        let cid := f.cid.getD 0
        let d := if c.op == Op.discardSecure then allSwaths.foldl (fun d n => d.dropDiscards n) d else d
        (d.updCmd cid fun x => { x with failed := true }).answer cid St.mediaLost f.lostBlock
      | none => d.send sid
          { op := f.op, status := St.mediaLost, space := f.space, tag := f.tag, more := false, payload := f.lostBlock,
            via := f.via, reqSeq := some q, cid := none, swath := none, ownRec := none, cred := f.cred } (fun _ => 0)

/-- A write is refused with BUSY because of a unit it fills or streams through, and nothing of it is applied; with a part,
the whole stream (R155). -/
def Dev.refuseUnit (d : Dev) (x : BufUnit) : Dev :=
  let d := match x.cid with
    | some cid => d.refuse cid St.busy []
    | none => d
  let of (s : Stream) : Bool := s.space == x.space && s.key == x.key && s.ver == x.ver
  (d.ses.ctx.filter fun e => e.2.streams.any of).foldl (fun d e =>
    let parts := (e.2.streams.filter of).flatMap (·.parts)
    (parts.foldl (fun d cid => d.refuse cid St.busy []) d).abandonStream e.1 x.space x.key) d

/-- A buffer unit's beat is uncorrectable: a write that has not switched is refused; values switched into the unit lose
what lies in the beat's map unit. -/
def Dev.bufferUe (d : Dev) (n : Fin 16) (u : Nat) (q : Fin 4) : Dev :=
  match look u (d.sw n).units with
  | none => d
  | some x =>
    if x.early then d.refuseUnit x
    else (((d.sw n).map.filter fun e => e.2 == bufferEntry u q).map (·.1)).foldl (fun d m => d.unitGone n m) d

/-- The effect of an uncorrectable error by what lies there (Table 10-1). -/
def Dev.dramUe (d : Dev) (n : Fin 16) : DramAt → Dev
  | .pageMap | .indexMain | .indexOverflow | .working | .testArea => d.stewardReset n 2
  | .valueCache loc => d.updSw n fun s => { s with vc := s.vc.filter fun e => e.unit != loc }
  | .retention sid seq idx => d.retentionLost sid seq idx
  | .buffer u q => d.bufferUe n u q
  | .spare x => d.dramUe n x

/-- A fetch from DRAM or from code SRAM fails: the core stops, and the steward resets its swath (R355). -/
def Dev.trapCore (d : Dev) (n : Fin 16) : Dev := (d.updSw n fun s => { s with trapped := true }).stewardReset n 2

/-- An uncorrectable SRAM word in a swath is counted and raises its interrupt (R368). -/
def Dev.swSramUe (d : Dev) (n : Fin 16) : Dev :=
  (d.bump (Base.sw n) F.SW_SRAM_UE_COUNT).raise (privSw n 4)

/-- The same in the host port block (0x80) or the steward (0x81). -/
def Dev.glbSramUe (d : Dev) (s : Nat) : Dev := (d.bump Base.glb F.GLB_SRAM_UE_COUNT).raise (shared s)

/-- A granule is read with a beat found uncorrectable by a core or a DMA channel (R347, R356). -/
def Dev.badRead (d : Dev) (n : Fin 16) (h : DramHit) (master : Nat) : Dev :=
  let g := h.granule % 2 ^ 28
  ((d.updSw n fun s => s.upset g h.beat.val h.err).spoil n g h.beat.val).readGranule n g master 0

/-- Something can be read at the place that a read names. -/
def Dev.reads (d : Dev) (n : Fin 16) (h : DramHit) : Bool :=
  d.swRuns n && (d.sw n).liesAt (h.granule % 2 ^ 28) h.at_

/-- CORE_TRAP: an uncorrectable fetch stops a core, and a failing load acts by its region. BIST firmware handles the trap of
a test load, under the test with EN at 1 (R580). -/
def doCoreTrap (f : CoreFault) (d : Dev) : Dev :=
  match f with
  | .steward => (d.glbSramUe 0x81).stewardFault
  | .code n => (d.swSramUe n).trapCore n
  | .fetch n h => if d.reads n h && h.at_ == .working then (d.badRead n h 0).trapCore n else d
  | .load n h => if d.reads n h then (d.badRead n h 1).dramUe n h.at_ else d
  | .testLoad n => if d.underTest n && d.flag (Base.sw n) F.SW_MEM_CHK_CTRL_EN then d else d.trapCore n

/-- DMA_UE_HALT: the channel halts before the bad data is delivered, the error is latched, and the swath
core acts under Table 10-1 (R356, R357). -/
def doDmaUeHalt (n : Fin 16) (ch : Fin 8) (granule : Nat) (beat : Fin 16) (at_ : DramAt) (d : Dev) : Dev :=
  let h : DramHit := { granule := granule, beat := beat, at_ := at_, err := [] }
  if !d.reads n h then d
  else
    let b := Base.sw n
    let d := d.badRead n h 2
    let d := d.setFld b F.SW_MEM_DMA_HALTED (setBit (d.fld b F.SW_MEM_DMA_HALTED) ch.val true)
    d.dramUe n at_

/-! ### Reads made for a command (R342, R346, R357) -/

/-- Number of a master in SW_MEM_UE_INFO.MASTER. -/
def masterNo : DramMaster → Nat
  | .load => 1 | .dma => 2 | .index => 3 | .cipher => 4

/-- A read of DRAM by a core or an engine: corrected data is passed on, and an uncorrectable beat acts by its region. A DMA
channel that meets one halts instead (DMA_UE_HALT). -/
def Dev.dramRead (d : Dev) (n : Fin 16) (m : DramMaster) (h : DramHit) : Dev :=
  let g := h.granule % 2 ^ 28
  if !d.reads n h then d
  else
    let d := d.updSw n fun s => s.upset g h.beat.val h.err
    if d.granuleBad n g then
      if m = .dma then d else (d.readGranule n g (masterNo m) 0).dramUe n h.at_
    else d.readGranule n g (masterNo m) 0

/-- The command is the one that becomes eligible next at a swath. -/
def Dev.nextEligible (d : Dev) (n : Fin 16) (cid : Nat) : Bool :=
  d.swRuns n && ((firstByPrio (d.startable n)).map (·.1)) == some cid

/-- CHAIN_ELIGIBLE, with the reads of DRAM made for the command. -/
def doChainRead (n : Fin 16) (cid : Nat) (r : ChainRead) (d : Dev) : Dev :=
  let d := if d.nextEligible n cid then r.reads.foldl (fun d e => d.dramRead n e.1 e.2) d else d
  doChainEligible n cid r.recOk d

/-- DMA_RESTART: channels named by RESTART run again. -/
def doDmaRestart (n : Fin 16) (mask : BitVec 8) (d : Dev) : Dev :=
  let b := Base.sw n
  d.setFld b F.SW_MEM_DMA_HALTED ((BitVec.ofNat 8 (d.fld b F.SW_MEM_DMA_HALTED)) &&& ~~~ mask).toNat

/-! ### Writes of part of a beat, and the checker test area (R344, R345, R365, R366) -/

/-- A write of a beat or of part of one: a part is read, merged and written back, and into an uncorrectable beat it
is merged as read and written poisoned; a whole beat is written afresh. The error is met by master 7, the
read-modify-write (SOURCE 2). -/
def Dev.beatWrite (d : Dev) (n : Fin 16) (w : BeatWrite) : Dev :=
  let g := w.granule % 2 ^ 28
  if !d.swRuns n || !(d.sw n).liesAt g w.at_ then d
  else if 8 ≤ w.new.length then d.updSw n fun s =>
    { s.setBeat g w.beat.val (beatOf (w.new.take 8)) with
      ueSeen := s.ueSeen.filter (· != g), ueOver := if s.ueSeen.contains g then insertNat g s.ueOver else s.ueOver }
  else
    let d := d.updSw n fun s => s.upset g w.beat.val w.err
    let l := d.channelRead n ((d.sw n).beatAt g w.beat.val)
    let data := (overlay (beatData (d.marked n) l) w.first.val w.new).take 8
    match decodeBeat (d.marked n) l with
    | .good => d.updSw n fun s => s.setBeat g w.beat.val (beatOf data)
    | .corrected j => (d.updSw n fun s => s.setBeat g w.beat.val (beatOf data)).corrected n g j 2
    | .bad =>
      ((d.updSw n fun s => s.setBeat g w.beat.val (poisonBeat data)).latchUe n g w.beat.val 7 2).dramUe n w.at_

/-- WRITE_COMPLETE with a write of a DRAM beat that its switch makes (R184, R344). -/
def doWriteSwitch (n : Fin 16) (cid : Nat) (al : Alloc) (part : Option BeatWrite) (d : Dev) : Dev :=
  let d' := doWriteComplete n cid al d
  match part with
  | some w => if (d'.sw n).rseq = (d.sw n).rseq then d' else d'.beatWrite n w
  | none => d'

/-- The swath core stores eight bytes in the test area: with EN at 1 the check bytes are CHK8 and CHK9. -/
def Dev.coreStore (d : Dev) (n : Fin 16) (g beat : Nat) (data : List Byte) : Dev :=
  let b := Base.sw n
  let l := if d.flag b F.SW_MEM_CHK_CTRL_EN then
      data ++ be 1 (d.fld b F.SW_MEM_CHK_CTRL_CHK8) ++ be 1 (d.fld b F.SW_MEM_CHK_CTRL_CHK9)
    else beatOf data
  d.updSw n fun s => s.setBeat g beat l

/-- The swath core loads a beat of the test area: with EN at 1 the raw check bytes and both syndromes are latched,
and then the beat decodes as usual. An uncorrectable one traps the core, which BIST firmware handles (R580). -/
def Dev.coreLoad (d : Dev) (n : Fin 16) (g beat : Nat) : Dev :=
  let b := Base.sw n
  let l := d.channelRead n ((d.sw n).beatAt g beat)
  let d := if d.flag b F.SW_MEM_CHK_CTRL_EN then
      (((d.setFld b F.SW_MEM_CHK_RAW_RAW8 (l.getD 8 0).toNat).setFld b F.SW_MEM_CHK_RAW_RAW9 (l.getD 9 0).toNat).setFld
        b F.SW_MEM_CHK_RAW_S0 (syndrome0 l).toNat).setFld b F.SW_MEM_CHK_RAW_S1 (syndrome1 0 l).toNat
    else d
  match decodeBeat (d.marked n) l with
  | .good => d
  | .corrected j => d.corrected n g j 0
  | .bad => d.latchUe n g beat 1 0

/-- The checker sequence: eight bytes of 0x00 stored to the first beat of the test area, and a load of it (DESIGN
CHOICE, log entry 99: the example of R366, run as BIST begins and as EN is written 1 during it). -/
def Dev.checkerRun (d : Dev) (n : Fin 16) : Dev := (d.coreStore n 0xFFFC000 0 (zeros 8)).coreLoad n 0xFFFC000 0

/-! ### Page retirement (R361 to R364) -/

/-- A page of 32 granules that firmware retires: seen by enough patrol passes, or uncorrectable and refilled or
rewritten since (R361). -/
def Dev.retires (d : Dev) (n : Fin 16) (page : Nat) : Bool :=
  let s := d.sw n
  (s.log.any fun e => e.2.granule / 32 == page &&
    decide (d.fld (Base.sw n) F.SW_MEM_CTRL_RETIRE_THR ≤ e.2.passes)) || (s.ueOver.any fun g => g / 32 == page)

/-- A beat is copied to a spare page: corrected, or poisoned where it is uncorrectable, and logged as any other access
(R347, R348, R362). -/
def Dev.copyBeat (d : Dev) (n : Fin 16) (mark : Option Nat) (spare g : Nat) (f : Nat × BeatIs) : Dev :=
  let l := d.channelRead n ((d.sw n).beatAt g f.1)
  let data := beatData mark l
  let out := if f.2 = .bad then poisonBeat data else beatOf data
  let d := d.updSw n fun s => { s with dram := put ((0xFFFE000 + spare * 32 + g % 32) * 16 + f.1) out s.dram }
  match f.2 with
  | .good => d
  | .corrected j => d.corrected n g j 0
  | .bad => d.updSw n fun s => s.logBeat g 15 0

/-- The granules of a page, copied to a spare page. Those in which the model holds no beat are as the fill leaves the
spare page's. -/
def Dev.copyPage (d : Dev) (n : Fin 16) (page spare : Nat) : Dev :=
  let d := d.updSw n fun s => { s with dram := s.dram.filter fun e => e.1 / 512 != 0x7FFF00 + spare }
  ((d.sw n).knownGranules (page * 32) (page * 32 + 31)).foldl (fun d g =>
    (d.granuleRead n g).foldl (fun d f => d.copyBeat n (d.marked n) spare g f) d) d

/-- A page moves to a spare page while a remap entry is free; with the last entry used, the remap table is
full (R362, R364). -/
def Dev.retirePage (d : Dev) (n : Fin 16) (page : Nat) : Dev :=
  let s := d.sw n
  if s.remap.contains page || 256 ≤ s.remap.length then d
  else
    let d1 := (d.copyPage n page s.remap.length).updSw n fun s => { s with
      remap := s.remap ++ [page],
      ueOver := s.ueOver.filter fun g => g / 32 != page }
    if (d1.sw n).remap.length = 256 then (d1.condCheck d n 2).reportSw n 0x0702 2 0 0 else d1

/-- PAGE_RETIRE: firmware retires a page that keeps failing. -/
def doPageRetire (n : Fin 16) (page : Nat) (d : Dev) : Dev :=
  if !d.retires n page || !d.swRuns n then d else d.retirePage n page

/-! ### SRAM (R367, R368, Table 10-2) -/

/-- A function is reset for an uncorrectable error, unless it already is. -/
def Dev.faultReset (d : Dev) (f : Fn) : Dev := if d.resetting f then d else d.beginReset f 2

/-- A received frame that waits at its port is dropped and counted in RX_NOBUF, in a speed step too, since it came before
(DESIGN CHOICE, log entry 122: R66 says that a port counts neither frames nor errors in a step). -/
def Dev.dropRx (d : Dev) (p : PortId) (k : Nat) : Dev :=
  match (d.port p).rxq[k]? with
  | none => d
  | some e =>
    (((d.updPort p fun x => { x with rxq := x.rxq.eraseIdx k }).dropKey e.keyNo).giveCells e.cells e.cells7).portCount
      p Cnt.noBuf 1

/-- A message lacks the fragment at an offset again, and has not been received in full. -/
def Ctx.loseFrag (c : Ctx) (seq off : Nat) : Ctx :=
  { c with
    rxDone := c.rxDone.filter (· != seq),
    msgs := c.msgs.map fun m =>
      if m.seq == seq then { m with
        frags := m.frags.filter fun f => f.2.1 != off, held := m.held.filter fun h => h.off != off, done := false,
        frag0 := m.frag0 && !(m.frags.any fun f => f.2.1 == off && f.1 == 0) }
      else m }

/-- A cell of a message held fails: its frame is dropped and counted in RX_NOBUF, and its fragment has not come. A request
that the drive has acknowledged, or that has been received in full and become a command, stands (DESIGN CHOICE, log
entry 122: the spec does not say how it would be completed). -/
def Dev.dropHeld (d : Dev) (sid seq off : Nat) : Dev :=
  match d.ctx sid with
  | none => d
  | some c =>
    match c.msg seq with
    | none => d
    | some m =>
      let kept := seqUpTo c.isSealed seq c.rxAck || (m.done && m.cid.isSome)
      match m.held.find? fun h => h.off == off with
      | some h =>
        if kept then d.portCount c.port Cnt.noBuf 1
        else ((d.updCtx sid fun x => x.loseFrag seq off).giveHeld [h]).portCount c.port Cnt.noBuf 1
      | none =>
        match m.cid.bind fun cid => (d.cmd cid).bind fun q => q.held.find? fun h => h.off == off with
        | some h =>
          if kept then d.portCount c.port Cnt.noBuf 1
          else
            ((((d.updCtx sid fun x => x.loseFrag seq off).updCmd (m.cid.getD 0) fun q => { q with
              held := q.held.filter fun x => x.off != off }).giveHeld [h]).portCount c.port Cnt.noBuf 1)
        | none => d

/-- A single-bit error is corrected and counted; the word is written back (R367). -/
def Dev.sramCorrected (d : Dev) : Option (Fin 16) → Dev
  | some n => d.bump (Base.sw n) F.SW_SRAM_CE_COUNT
  | none => d.bump Base.glb F.GLB_SRAM_CE_COUNT

/-- SRAM_UE: the effect of a double-bit error by what the word holds, and a single-bit error. -/
def doSramUe (k : SramKind) (d : Dev) : Dev :=
  match k with
  | .codeSwath n => doCoreTrap (.code n) d
  | .codeSteward => doCoreTrap .steward d
  | .swathMeta n => (d.swSramUe n).stewardReset n 2
  | .rxCell p k => (d.glbSramUe 0x80).dropRx p k
  | .rxHeld sid seq off => (d.glbSramUe 0x80).dropHeld sid seq off
  | .single sw => d.sramCorrected sw
  | .frontCache i => (d.glbSramUe 0x80).updDisp fun x => { x with fc := x.fc.eraseIdx i }
  | .retention sid seq idx => (d.glbSramUe 0x80).retentionLost sid seq idx
  | .sessionOther => (d.glbSramUe 0x80).faultReset .sessionEngine
  | .matcherOther => (d.glbSramUe 0x80).faultReset .policyMatcher
  | .dispatcherOther => (d.glbSramUe 0x80).faultReset .dispatcher
  | .portOther p => (d.glbSramUe 0x80).faultReset (.port p)
  | .stewardOther => (d.glbSramUe 0x81).stewardFault

/-! ### Journal memory (R374) -/

/-- START_GAP_MOVE: the gap of a region moves by one line, which costs one line write, read back like every other. -/
def doStartGapMove (n : Fin 16) (region : Fin 64) (line : Fin 8) (d : Dev) : Dev :=
  (d.updSw n fun s => { s with
    gaps := putD region.val 0 ((lookD region.val 0 s.gaps + 1) % 2 ^ 20) s.gaps, jmWear := s.jmWear + 1 }).lineReadBack
    n line.val

end Sys2Proof.Machine
end

