-- ==== Sys2Proof/Machine/Placement.lean ====
section
/-!
DEFINITION. Moving placement slots (R271 to R276): the foster of a slot, its copy passes, its cutover
and the end of an evacuation job.
-/
namespace Sys2Proof.Machine

/-! ### Choosing (R271, R275, R276) -/

/-- The evacuation job that runs, by its swath. -/
def Dev.evacJob (d : Dev) : Option (Fin 16 × Job) :=
  (d.adm.jobs.find? fun e => e.1 / 256 == 3 && e.2.st == 1).map fun e => (finSw (e.1 % 256), e.2)

/-- The next slot an evacuation (ACTION 1) or return (ACTION 2) of a swath moves. -/
def Dev.nextSlot (d : Dev) (n : Fin 16) (act : Nat) : Option Nat :=
  (List.range 256).find? fun s =>
    let x := d.slot s
    if act = 1 then x.owner == n && (x.st != 4 || x.home != n) else x.home == n && (x.owner != n || x.st != 0)

/-- Keys of a slot at a swath; only the paired ones of a PARTIAL slot move. -/
def Dev.movedKeys (d : Dev) (m : Fin 16) (slot : Nat) (pairedOnly : Bool) : List KeyEnt :=
  (d.sw m).keys.filter fun k => hashSlot k.hash == slot && (k.paired || !pairedOnly)

/-- The swath a slot in motion has its keys copied from: the owner, or the partner in state PARTIAL, where the owner
cannot be read. -/
def Dev.slotSource (d : Dev) (slot : Nat) : Fin 16 :=
  let x := d.slot slot
  if x.st = 4 then x.partner else x.owner

/-- The swath of the most LFREE, the lowest number on a tie. -/
def Dev.mostFree (d : Dev) : List (Fin 16) → Option (Fin 16)
  | [] => none
  | m :: t =>
    match d.mostFree t with
    | none => some m
    | some k => if lookD m.val 0 d.disp.lfree < lookD k.val 0 d.disp.lfree then some k else some m

/-- The foster of a slot (R271); the keys to make room for are those that will move. -/
def Dev.fosterFor (d : Dev) (n : Fin 16) (slot mask : Nat) : Option (Fin 16) :=
  let x := d.slot slot
  let ks := d.movedKeys (if d.online n then n else x.partner) slot (!d.online n || x.pairedOnly)
  let l := (ks.map fun k => k.value.length).sum + 2 ^ 30
  let p : Nat := (ks.map fun k => k.charge.2).sum + 2 ^ 30
  d.mostFree (allSwaths.filter fun m =>
    (mask == 0 || bit mask m.val) && d.online m && !(d.sw m).fallow && !d.underTest m && m != n &&
      m != x.partner && decide (l ≤ lookD m.val 0 d.disp.lfree) && decide (Int.ofNat p ≤ d.pfreeOf m) &&
      decide (ks.length ≤ lookD m.val 0 d.disp.kfree))

/-- Begin the copy of a slot to a swath: COPY or RETURNING, or PARTIAL where its owner cannot be read. -/
def Dev.beginCopy (d : Dev) (n : Fin 16) (slot : Nat) (m : Fin 16) (act : Nat) : Dev :=
  let x := d.slot slot
  let st := if act ≠ 1 then 5 else if d.online n then 1 else 4
  let d := d.setSlot slot { x with st := st, copied := false, part := x.pairedOnly, moved := [] }
  let d := { d with adm := { d.adm with slot := some slot, foster := some m, copies := 0 } }
  d.setFld Base.dsp F.DSP_EVQ_STAT_SLOT slot

/-- The running job takes its next slot, if one is left and a swath can take it. -/
def Dev.takeSlot (d : Dev) : Dev :=
  match d.evacJob with
  | none => d
  | some (n, j) =>
    match d.nextSlot n j.act with
    | none => d
    | some s =>
      if j.act = 1 then
        match d.fosterFor n s j.arg with
        | none => d
        | some m => d.beginCopy n s m 1
      else if d.online n then d.beginCopy n s n 2
      else d

/-! ### Copying -/

/-- A swath's copy of a key goes without a tombstone: partial copies, and copies of a slot moved away. -/
def Dev.dropCopy (d : Dev) (m : Fin 16) (k : KeyEnt) : Dev :=
  let d := d.updDisp fun x => { x with
    lfree := addAt m.val k.charge.1 x.lfree, pfree := addInt m.val k.charge.2 x.pfree,
    kfree := addAt m.val 1 x.kfree }
  (d.updSw m fun s => ((s.eraseKey k.space k.key).markDirty (k.segs false)).freeMapUnits k.units).vcFree m k.cells

/-- The copy of a key is the same as the source's. -/
def sameCopy (a b : KeyEnt) : Bool :=
  a.version == b.version && a.held == b.held && a.retain == b.retain && a.ahead == b.ahead

/-- Copy one key from swath n where it differs at swath m; none while the target has no room. A key whose record
cannot be read stays behind (DESIGN CHOICE, log entry 94). -/
def Dev.copyKey (d : Dev) (n m : Fin 16) (k : KeyEnt) (al : Alloc) : Option Dev :=
  if (((d.sw m).find k.space k.key).any (sameCopy k)) || (d.sw n).recLost k then some d
  else d.copyTo n m k k.ahead ((d.sw n).lostSheaves k) al

/-- Bring a slot's keys at the target to those of the source. -/
def Dev.syncSlot (d : Dev) (src m : Fin 16) (slot : Nat) (pairedOnly : Bool) (al : List Alloc) : Option Dev :=
  let ks := d.movedKeys src slot pairedOnly
  let gone := (d.movedKeys m slot pairedOnly).filter fun k => (d.sw src).find k.space k.key |>.isNone
  let d := gone.foldl (fun d k => d.dropCopy m k) d
  (ks.foldl (fun (a : Option Dev × List Alloc) k =>
    match a.1 with
    | none => a
    | some d => (d.copyKey src m k (a.2.head?.getD ((d.sw m).freshPlace k)), a.2.drop 1)) (some d, al)).1

/-- The slot in motion, with the job's swath and action, source and target. -/
def Dev.moving (d : Dev) : Option (Fin 16 × Nat × Nat × Fin 16 × Fin 16) :=
  match d.evacJob, d.adm.slot, d.adm.foster with
  | some (n, j), some s, some m => some (n, j.act, s, d.slotSource s, m)
  | _, _, _ => none

/-- SLOT_COPY_PASS: a pass over the slot ends; with fewer than 65,536 keys on the move list, or after
three passes, the slot goes to cutover (R272, R273). A slot whose owner cannot be read stays PARTIAL (R275). -/
def doSlotCopyPass (d : Dev) : Dev :=
  match d.moving with
  | none => d
  | some (_, _, s, src, m) =>
    let x := d.slot s
    if !(x.st == 1 || x.st == 5 || (x.st == 4 && !x.copied)) || !d.online src || !d.online m then d
    else
      match d.syncSlot src m s x.pairedOnly [] with
      | none => d
      | some d =>
        let d := { d with adm := { d.adm with copies := d.adm.copies + 1 } }
        if x.moved.length < 65536 ∨ d.adm.copies = 3 then
          d.setSlot s { x with st := if x.st = 4 then 4 else 2, copied := true, moved := [] }
        else d.updDisp fun y => { y with plc := put s { x with moved := [] } y.plc }

/-! ### Cutover (R249, R273, R275, R276, R366, R587) -/

/-- Commands and streams of a slot that are still in flight at a swath. -/
def Dev.slotBusy (d : Dev) (slot : Nat) (src : Fin 16) : Bool :=
  (d.disp.cmds.any fun e => e.2.hasTag && hashSlot e.2.hash == slot && e.2.owners.contains src) ||
    d.ses.ctx.any fun e => e.2.streams.any fun s =>
      s.owners.contains src && hashSlot (d.keyedHash s.space s.key) == slot

/-- Swaths that own no slot. -/
def Dev.bypassed (d : Dev) : List (Fin 16) := allSwaths.filter fun n => !d.ownsSlots n

/-- A second swath has come to own no slots (R587). -/
def Dev.bypassCheck (d before : Dev) : Dev :=
  let l := d.bypassed
  if before.bypassed.length < l.length ∧ 2 ≤ l.length then
    d.report 0x0C03 Unit.steward 2 l.length ((l.map fun n => 2 ^ n.val).sum)
  else d

/-- The slot's new entry: HOME again where its owner is, FOSTERED elsewhere; an evacuated PARTIAL slot
stays PARTIAL, since its unpaired keys are still on HOME. -/
def Slot.handOver (x : Slot) (m : Fin 16) (act : Nat) : Slot :=
  { x with
    owner := m, copied := false, part := false, moved := [],
    st := if x.pairedOnly ∧ act = 1 then 4 else if m = x.home then 0 else 3 }

/-- A SLOT_IN (5) or SLOT_OUT (6) record. -/
def Swath.slotRec (s : Swath) (type slot : Nat) : Swath := s.goneRec type slot 0 0 0 0 [] none

/-- SLOT_CUTOVER: with the slot's commands finished, the move list is copied, SLOT_OUT and SLOT_IN are
written and OWNER changes; the job takes its next slot. While a ring is full it waits (R265). -/
def doSlotCutover (al : List Alloc) (d : Dev) : Dev :=
  match d.moving with
  | none => d
  | some (n, act, s, src, m) =>
    let x := d.slot s
    if !(x.st == 2 || (x.st == 4 && x.copied)) || !d.online src || !d.online m || d.slotBusy s src then d
    else
      match d.syncSlot src m s x.pairedOnly al with
      | none => d
      | some d1 =>
        let leaves := src != x.partner
        let d1 := if leaves then
            (d1.movedKeys src s x.pairedOnly).foldl (fun d k => d.dropCopy src k) d1 else d1
        let d1 := if leaves then d1.updSw src fun y => y.slotRec 6 s else d1
        let d1 := d1.updSw m fun y => y.slotRec 5 s
        if !(d1.sw src).ringFits || !(d1.sw m).ringFits then d
        else
        let d1 := (d1.setSlot s (x.handOver m act)).bypassCheck d
        let done := d1.adm.moved + 1
        let left := ((List.range 256).filter fun t =>
          let y := d1.slot t
          if act = 1 then y.owner == n else y.home == n && (y.owner != n || y.st != 0)).length
        let d1 := { d1 with adm := { d1.adm with slot := none, foster := none, moved := done } }
        let d1 := d1.setFld Base.dsp F.DSP_EVQ_STAT_DONE (min 255 done)
        let d1 := match d1.job 3 n.val with
          | some j => d1.setJob 3 n.val { j with permille := done * 1000 / (done + left) }
          | none => d1
        d1.takeSlot

/-- EVACUATION_END: no slot is left, or no swath can take the next one (R271). -/
def doEvacuationEnd (d : Dev) : Dev :=
  match d.evacJob with
  | none => d
  | some (n, j) =>
    if d.adm.slot.isSome then d
    else
      let d := d.takeSlot
      if d.adm.slot.isSome then d
      else
        let left := (d.nextSlot n j.act).isSome
        if left ∧ j.act = 2 then d
        else
          let d := d.endJob 3 n.val (!left) (if left then St.noSpace else St.ok)
          (d.setFld Base.dsp F.DSP_EVQ_STAT_ACTIVE 0).raise (shared 0x31)

/-- A slot that was in COPY or CUTOVER drops the target's partial copies and starts over (R274). -/
def Dev.restartSlot (d : Dev) : Dev :=
  match d.adm.slot, d.adm.foster with
  | some s, some m =>
    let x := d.slot s
    let d := (d.movedKeys m s x.pairedOnly).foldl (fun d k => if x.partner = m ∨ x.owner = m then d else d.dropCopy m k) d
    let st := if x.owner = x.home then 0 else if x.part then 4 else 3
    let d := d.setSlot s { x with st := st, copied := false, part := false, moved := [] }
    { d with adm := { d.adm with slot := none, foster := none, copies := 0 } }
  | _, _ => d

/-- DSP_EVQ_STAT shows the evacuation job that runs (R277). -/
def Dev.showEvac (d : Dev) : Dev :=
  match d.evacJob with
  | none => d
  | some (n, _) =>
    let b := Base.dsp
    let d := (d.setFld b F.DSP_EVQ_STAT_SWATH n.val).setFld b F.DSP_EVQ_STAT_ACTIVE 1
    d.setFld b F.DSP_EVQ_STAT_DONE (min 255 d.adm.moved)

/-- An evacuation job that waits resumes: its slot starts over and the next one is taken (R274). -/
def Dev.resumeEvac (d : Dev) : Dev :=
  if !(d.adm.jobs.any fun (e : Nat × Job) => e.1 / 256 == 3 && e.2.st == 4) then d
  else
    let d := d.restartSlot
    let jobs : Tbl Job := d.adm.jobs.map fun (e : Nat × Job) =>
      (e.1, if e.1 / 256 == 3 && e.2.st == 4 then { e.2 with st := 1 } else e.2)
    ({ d with adm := { d.adm with jobs := jobs } }).showEvac.takeSlot

end Sys2Proof.Machine
end

