-- ==== Sys2Proof/Machine/Inputs.lean ====
section
/-!
DEFINITION. Discrete inputs and outputs and the chain's presence (chapter 13), and what an activation of
HOLD_A or HOLD_B does at the swaths (R235, R611).
-/
namespace Sys2Proof.Machine

/-! ### The three inputs (R464 to R469) -/

def holdToDiscrete : HoldIn → Discrete
  | .holdA => .holdA | .holdB => .holdB

/-- Number of an input in event records and of its counter. -/
def inputNo : Discrete → Nat
  | .holdA => 0 | .holdB => 1 | .rstInN => 2

def Dev.input (d : Dev) : Discrete → InputSt
  | .holdA => d.io.holdA | .holdB => d.io.holdB | .rstInN => d.io.rst

def Dev.setInput (d : Dev) (i : Discrete) (x : InputSt) : Dev :=
  match i with
  | .holdA => { d with io := { d.io with holdA := x } }
  | .holdB => { d with io := { d.io with holdB := x } }
  | .rstInN => { d with io := { d.io with rst := x } }

/-- A field of an input's configuration register: the three registers have one layout (Table 13-9). -/
def inputFld (f : Fld) (i : Discrete) : Fld := f.at (inputNo i)

/-- The input counts as active: enabled, active, neither stuck nor suspended. -/
def Dev.inputOn (d : Dev) (i : Discrete) : Bool :=
  d.flag Base.glb (inputFld F.GLB_IN_CFG_HA_EN i) && (d.input i).counts

/-- The shared source of a change. -/
def inputSrc : Discrete → Option Nat
  | .holdA => some 0xA8 | .holdB => some 0xA9 | .rstInN => none

/-- A change of an input is accepted: counted, and with more than CHAT_MAX changes within 60 s the input
is suspended (R464, R468). Answers whether the input's change source rises: not while it is suspended,
not for the release of a stuck input (R467). -/
def Dev.acceptChange (d : Dev) (i : Discrete) (act : Bool) : Dev × Bool :=
  let x := d.input i
  if x.active = act then (d, false)
  else
    let d := d.bump Base.glb (F.GLB_IN_CHG_COUNT.at (inputNo i))
    if x.susp then (d.setInput i { x with active := act, since := d.io.hold }, false)
    else
      let times := (x.recent.filter fun t => decide (d.now < t + 60 * tickHz)) ++ [d.now]
      let y := { x with active := act, stuck := x.stuck && act, recent := times, since := d.io.hold }
      let rises := !x.stuck && d.flag Base.glb (inputFld F.GLB_IN_CFG_HA_EN i)
      if d.fld Base.glb (inputFld F.GLB_IN_CFG_HA_CHAT_MAX i) < times.length then
        let d := d.setInput i { y with susp := true, suspS := 600, stuck := false, recent := [] }
        ((d.raise (shared 0xAB)).report 0x0903 Unit.inputs 2 (inputNo i) 0, rises)
      else (d.setInput i y, rises)

/-! ### HOLD_A and HOLD_B (R235, R611) -/

/-- The key a ring entry names, when its current version is the one the entry records. -/
def Swath.ringKey (s : Swath) (e : HoldEnt) : Option KeyEnt :=
  s.keys.find? fun k => k.space == e.space && k.hash == e.hash && k.version == e.version

/-- Ticks of the hold clock in a minute. -/
def minTicks : Nat := 60 * tickHz

/-- The entry of the ring whose write was admitted first. -/
def Swath.ringOldest (s : Swath) : Option HoldEnt :=
  s.holdRing.foldl (fun (o : Option HoldEnt) e =>
    match o with
    | some x => if e.clock < x.clock then some e else o
    | none => some e) none

/-- HOLD_SWEEP: the keys of recent writes whose rule names the input, and whose write came no earlier
than HOLD_MIN minutes before the activation, enter their chains as internal holds. When the look-back
reaches past the ring's oldest entry, every such key of the ring is held and 0x0504 is written. -/
def Dev.holdSweep (d : Dev) (n : Fin 16) (inp : HoldIn) (since : Nat) : Dev :=
  let s := d.sw n
  let b := match inp with
    | .holdA => 0
    | .holdB => 1
  let named := s.holdRing.filter fun e => bit e.sel b
  let cands := named.filterMap fun e => (s.ringKey e).map fun k => (e, k)
  let oldest := s.ringOldest
  let reach := named.any fun e =>
    (oldest.map fun o => decide (since < o.clock + e.mins * minTicks)).getD false
  let hits := if reach then cands else cands.filter fun c => decide (since ≤ c.1.clock + c.1.mins * minTicks)
  let items := hits.map fun c => ({ item := .hold c.2.space c.2.key c.2.version, space := c.2.space,
                                    hash := c.2.hash } : Haz)
  let d := d.updSw n fun s => { s with haz := s.haz ++ items }
  let d := if reach then
      d.reportSw n 0x0504 2 hits.length (((oldest.map (·.stamp)).getD 0) / 1024) else d
  Dev.applyHolds n (d.sw n).haz.length d

/-- An activation of a HOLD input empties the front cache, stops fills and sweeps every swath that takes
commands (R76, R465); the others apply it at their own ready (R471). -/
def Dev.holdActivated (d : Dev) (inp : HoldIn) : Dev :=
  let d := d.fcEmpty.updDisp fun x => { x with fcBlock := true, fills := [] }
  let d := { d with io := { d.io with applying := inp :: d.io.applying.filter (· != inp) } }
  let since := (d.input (holdToDiscrete inp)).since
  allSwaths.foldl (fun d n =>
    if (d.sw n).ready then d.holdSweep n inp since
    else d.updSw n fun s => { s with holdDue := s.holdDue.filter (· != (inp, since)) ++ [(inp, since)] }) d

/-- HOLD_INPUT_CHANGE: an accepted change of HOLD_A or HOLD_B. -/
def doHoldInputChange (inp : HoldIn) (active : Bool) (d : Dev) : Dev :=
  let i := holdToDiscrete inp
  let (d, rises) := d.acceptChange i active
  let d := match rises, inputSrc i with
    | true, some s => d.raise (shared s)
    | _, _ => d
  if rises && active && d.inputOn i then d.holdActivated inp else d

/-- An internal hold still waits in a swath's hazard table. -/
def Swath.holding (s : Swath) : Bool :=
  s.haz.any fun h => match h.item with
    | .hold _ _ _ => true
    | .cmd _ => false

/-- HOLD_APPLY_COMPLETE: every swath has applied the activation; the front cache is emptied again and
fills resume (R76). -/
def doHoldApplyComplete (inp : HoldIn) (d : Dev) : Dev :=
  if !d.io.applying.contains inp || (allSwaths.any fun n => (d.sw n).ready && (d.sw n).holding) then d
  else
    let left := d.io.applying.filter (· != inp)
    let d := { d with io := { d.io with applying := left } }
    d.fcEmpty.updDisp fun x => { x with fcBlock := !left.isEmpty }

/-- An activation of RST_IN_N resets the drive and holds it in reset. -/
def Dev.rstActivated (d : Dev) : Dev :=
  let d := { d with io := { d.io with holdReset := true } }
  if d.alive then d.driveReset 3 else d

/-- RST_IN_ACTIVATE: the drive is reset, every swath flushing first, and is held in reset (R466). -/
def doRstInActivate (d : Dev) : Dev :=
  let (d, rises) := d.acceptChange .rstInN true
  if rises && d.inputOn .rstInN then d.rstActivated else d

/-! ### LED_ACT_N (R474) -/

/-- LED_ACT_TIMER: the pulse ends; in power wait the blink goes on and off. Before ready the lamp stays
lit. -/
def doLedActTimer (d : Dev) : Dev :=
  if d.pw.waiting then { d with io := { d.io with ledAct := !d.io.ledAct } }
  else if d.flag Base.glb F.GLB_START_STAT_READY then { d with io := { d.io with ledAct := false } }
  else d

/-! ### The chain's pins (R460, R461) -/

/-- Whether a receiver is locked after what it finds. -/
def lockAfter (old : Bool) : ChainRx → Bool
  | .comma => true
  | .errors n => old && decide (n < 16)
  | .quiet => false

/-- Code and disparity errors found. -/
def codeErrors : ChainRx → Nat
  | .errors n => n
  | _ => 0

/-- CHAIN_LOCK_CHANGE: a chain receiver counts its code and disparity errors, and gains or loses lock. -/
def doChainLockChange (up : Bool) (rx : ChainRx) (d : Dev) : Dev :=
  let old := if up then d.io.upLock else d.io.dnLock
  let locked := lockAfter old rx
  if !d.chainOn then d
  else
    let d := d.bumpBy Base.glb (if up then F.GLB_CHAIN_CODE_UP_COUNT else F.GLB_CHAIN_CODE_DN_COUNT) (codeErrors rx)
    if old = locked then d
    else ({ d with io := if up then { d.io with upLock := locked } else { d.io with dnLock := locked } }).raise
      (shared 0xAC)

/-- CHAIN_PRESENCE_CHANGE: a neighbour comes or goes, while the drive runs with a source raised and else without; in the
Heath envelope the chain's pins are inactive (R453). -/
def doChainPresenceChange (up present : Bool) (d : Dev) : Dev :=
  let old := if up then d.io.upHere else d.io.dnHere
  if old = present ∨ d.envelope = 2 then d
  else
    let d' := { d with io := if up then { d.io with upHere := present } else { d.io with dnHere := present } }
    if d.alive then d'.raise (shared 0xAC) else d'

/-- The drive pulls CHAIN_PRSNT_OUT_N low (R461, R472). -/
def Dev.presenceLow (d : Dev) : Bool := d.boot.running && d.chainOn

/-- The drive pulls LED_ACT_N low (R474); it is off without power (R472). -/
def Dev.ledActLow (d : Dev) : Bool := d.io.ledAct

/-- The drive pulls LED_ID_N low (R474). -/
def Dev.ledIdLow (d : Dev) : Bool := d.flag Base.glb F.GLB_OUT_ID_LED

end Sys2Proof.Machine
end

