-- ==== Sys2Proof/Machine/Power.lean ====
section
/-!
DEFINITION. Power (chapter 12): budgets and the token pool, LLDP, the power loop, droop, temperature, the
hold-up bank and power-fail.
-/
namespace Sys2Proof.Machine

/-! ### Budget and tokens (R412, R413, R422, R423, R427) -/

/-- Milliwatts at the powered device by the class assigned (Table 12-1); never below Class 3. -/
def classMw (c : Nat) : Nat :=
  if 8 ≤ c then 71300 else if c = 7 then 62000 else if c = 6 then 51000 else if c = 5 then 40000
  else if c = 4 then 25500 else 13000

/-- The budget in Heath under a class and an allocation, if one has been received (R413). -/
def heathBudget (cls : Nat) (alloc : Option Nat) : Nat :=
  (match alloc with
    | some a => min (classMw cls) a
    | none => classMw cls) - 4000

def meadowBudget : Nat := 85000

def Dev.budget (d : Dev) : Nat := d.fld Base.pwr F.PWR_BUDGET_MW

/-- Tokens of 12.5 mW above FIXED, at most 2,048. -/
def Dev.poolFor (d : Dev) (mw : Nat) : Nat :=
  let fix := if d.envelope = 2 then d.fld Base.pwr F.PWR_TOK_FIX_HEATH_MW else d.fld Base.pwr F.PWR_TOK_FIX_MEADOW_MW
  min 2048 ((mw - fix) * 2 / 25)

/-- LEVEL is the greater of the power level and the thermal level (R427). -/
def Dev.level (d : Dev) : Nat := max d.pw.levelP d.pw.levelT

/-- Swaths grant what their shares of a changed pool allow (R423 to R425). -/
def Dev.grantAll (d : Dev) : Dev := allSwaths.foldl (fun d n => Dev.grant n (d.sw n).waits.length d) d

/-- Operations in progress run under the pool before a lowering (R419). -/
def Swath.oldOps (s : Swath) : Swath := { s with ops := s.ops.map fun e => (e.1, { e.2 with old := true }) }

/-- PWR_TOK_STAT follows the pool and the levels, and the swaths their shares. -/
def Dev.showTokens (d : Dev) : Dev :=
  let b := Base.pwr
  let eff := d.pw.pool * (16 - d.level) / 16
  let d := { d with pw := { d.pw with effective := eff } }
  let d := (d.setFld b F.PWR_TOK_STAT_POOL d.pw.pool).setFld b F.PWR_TOK_STAT_EFFECTIVE eff
  let d := d.setFld b F.PWR_TOK_STAT_LEVEL d.level
  ((d.setFld b F.PWR_TOK_STAT_BY_POWER (b2n (decide (0 < d.pw.levelP)))).setFld b F.PWR_TOK_STAT_BY_THERM
    (b2n (decide (0 < d.pw.levelT)))).grantAll

/-- The budget and the pool of a start or a change. -/
def Dev.putBudget (d : Dev) (mw : Nat) : Dev :=
  let d := d.setFld Base.pwr F.PWR_BUDGET_MW mw
  ({ d with pw := { d.pw with pool := d.poolFor mw } }).showTokens

/-- The budget and the pool change together; a change raises 0x92. -/
def Dev.setBudget (d : Dev) (mw : Nat) : Dev :=
  if d.budget = mw then d.putBudget mw else (d.putBudget mw).raise (shared 0x92)

/-- New levels; 0x96 rises when LEVEL leaves 0. -/
def Dev.setLevels (d : Dev) (p t : Nat) : Dev :=
  let was := d.level
  let d := ({ d with pw := { d.pw with levelP := p, levelT := t } }).showTokens
  if was = 0 ∧ 0 < d.level then d.raise (shared 0x96) else d

/-! ### Power wait (R414, R420) -/

/-- Power wait begins or ends: STAT.WAIT and source 0x91. -/
def Dev.setWait (d : Dev) (w : Bool) : Dev :=
  if d.pw.waiting = w then d
  else
    let d := { d with pw := { d.pw with waiting := w } }
    (d.setFld Base.pwr F.PWR_STAT_WAIT (b2n w)).raise (shared 0x91)

/-- POWER_WAIT_ENTER: every swath flushes and stops. -/
def Dev.enterWait (d : Dev) : Dev :=
  let d := (allSwaths.filter fun n => (d.sw n).ready && !d.resetting (.swath n)).foldl
    (fun d n => d.resetSwath n) d
  (d.setFld Base.glb F.GLB_START_STAT_READY 0).setWait true

/-- Power wait ends: each swath replays as after a power loss and reports ready in its time. -/
def Dev.leaveWait (d : Dev) : Dev :=
  let d := d.setWait false
  (allSwaths.filter fun n => !(d.sw n).failed && (d.sw n).hiMark.isSome).foldl (fun d n => (d.replay n true [] []).markLags n) d

/-- LLDP_ALLOCATION: the PSE allocates power. A raise takes effect at once, a lowering within 10 ms and
before its echo, which waits for the operations in progress; one below 47 W of budget ends in power wait (R419,
R420). -/
def doLldpAllocation (mw : Nat) (d : Dev) : Dev :=
  let d := (d.setFld Base.pwr F.PWR_ALLOC_MW mw).setFld Base.pwr F.PWR_STAT_LLDP 1
  let d := { d with pw := { d.pw with lldpTalk := true } }
  if d.envelope ≠ 2 then { d with pw := { d.pw with allocMw := mw } }
  else
    let new := heathBudget (d.fld Base.pwr F.PWR_STAT_CLASS) (some mw)
    let old := d.budget
    if new < 47000 then
      let was := d.pw.waiting
      let d := if was then d else d.enterWait
      let d := d.setBudget new
      if new < old ∨ !was then { d with pw := { d.pw with lowering := true } }
      else { d with pw := { d.pw with allocMw := mw, lowering := false } }
    else
      let d := if new < old then { d with sws := d.sws.map Swath.oldOps } else d
      let d := d.setBudget new
      let d := if d.pw.waiting then d.leaveWait else d
      if new < old then { d with pw := { d.pw with lowering := true } }
      else { d with pw := { d.pw with allocMw := mw, lowering := false } }

/-- The class of frames the steward sends of its own. -/
def stewardCls : Nat := 7

/-- The steward sends an LLDP frame on port C (R418). -/
def Dev.sendLldp (d : Dev) : Dev :=
  d.enqueue .c { via := Via.bare stewardCls, size := 128,
                 item := .lldp (d.fld Base.pwr F.PWR_LLDP_REQ_MW) d.pw.allocMw }

/-- LLDP_ECHO: with the operations of the old pool ended, the drive echoes a lowered allocation. -/
def doLldpEcho (d : Dev) : Dev :=
  if !d.pw.lowering || (allSwaths.any fun n => (d.sw n).ops.any fun e => e.2.old) then d
  else
    let d := { d with pw := { d.pw with lowering := false, allocMw := d.fld Base.pwr F.PWR_ALLOC_MW } }
    d.sendLldp

/-- LLDP_SEND_TIMER: LLDP goes out on port C while its link is up. -/
def doLldpSendTimer (d : Dev) : Dev :=
  if d.flag (Base.prt .c) F.PRT_STATUS_LINK then d.sendLldp else d

/-- LIVE_MOVE_MEADOW: V12_IN has stayed good for 1 s in Heath (R415). -/
def doLiveMoveMeadow (d : Dev) : Dev :=
  if d.envelope ≠ 2 then d
  else if !d.flag Base.pwr F.PWR_CTRL_LIVE_EN then d.setFld Base.pwr F.PWR_STAT_V12_OK 1
  else
    let d := (d.setFld Base.pwr F.PWR_STAT_ENVELOPE 1).setFld Base.pwr F.PWR_STAT_V12_OK 1
    let d := (d.raise (shared 0x91)).setBudget meadowBudget
    if d.pw.waiting then d.leaveWait else d

/-! ### The measured-power loop (R426) -/

/-- POWER_LOOP_TICK: one comparison every 10 ms. -/
def doPowerLoopTick (drawMw : Nat) (d : Dev) : Dev :=
  let d := d.setFld Base.pwr F.PWR_DRAW_MW (min drawMw 131071)
  if !d.flag Base.pwr F.PWR_TOK_CTRL_LOOP_EN then d
  else
    let b := d.budget
    let ok := if drawMw + 2000 < b then d.pw.okTicks + 1 else 0
    let exceeds := decide (b < drawMw)
    let fall := decide (100 ≤ ok)
    let p := if exceeds then min 12 (d.pw.levelP + 1) else if fall then d.pw.levelP - 1 else d.pw.levelP
    let d := { d with pw := { d.pw with okTicks := if fall then 0 else ok } }
    d.setLevels p d.pw.levelT

/-! ### Droop (R428, R429) -/

/-- DROOP_TRIP: the island's clock is halved and the trip counts. -/
def doDroopTrip (isl : Fin 66) (d : Dev) : Dev :=
  { d with pw := { d.pw with
      slow := insertNat isl.val d.pw.slow,
      droops := putD isl.val 0 ((lookD isl.val 0 d.pw.droops + 1) % 2 ^ 32) d.pw.droops,
      droopMs := put isl.val (lookD isl.val 0 d.pw.droopMs + 1) d.pw.droopMs } }

/-- Sensors at or above their limit include the controller's: the swath islands run at half clock. -/
def Dev.hotController (d : Dev) : Bool := d.pw.limited.contains 0

/-- An island runs at half clock: a droop halves it, or temperature (R18, R428, R432). -/
def Dev.halfClock (d : Dev) (isl : Nat) : Bool := d.pw.slow.contains isl || d.pw.slowT.contains isl

/-- DROOP_RECOVER: the droop no longer halves the clock. -/
def doDroopRecover (isl : Fin 66) (d : Dev) : Dev :=
  { d with pw := { d.pw with slow := d.pw.slow.filter (· != isl.val) } }

/-- DROOP_MS_REPORT: a steward millisecond in which an island tripped ends. -/
def doDroopMsReport (d : Dev) : Dev :=
  if d.pw.droopMs.isEmpty then d
  else ({ d with pw := { d.pw with droopMs := [] } }).raise (shared 0x95)

/-! ### Power-fail is raised (R439, R442) -/

/-- Raise power-fail: source 0x90, the journal's cause and count, the calendar's reading, and the flush of
every swath. From here only the end of the flush is left. -/
def Dev.raisePowerFail (d : Dev) (cause : Nat) : Dev :=
  let b := Base.pwr
  let d := (d.setFld b F.PWR_PF_COUNT (satAdd (d.fld b F.PWR_PF_COUNT) 1 65535)).setFld b F.PWR_PF_CAUSE cause
  let d := ((d.raise (shared 0x90)).saveCal).flushAll 0
  { d with pw := { d.pw with
      pfActive := true, pfCause := cause, pfPend := true, stopped := d.pw.stopped || decide (cause = 4) } }

/-! ### Temperature (R431 to R433, Table 12-3) -/

/-- Limit of a sensor, in °C. -/
def Dev.limitOf (d : Dev) (s : Nat) : Int :=
  if s = 0 then d.fld Base.pwr F.PWR_THERM_LIM_CTRL
  else if s ≤ 32 then d.fld Base.pwr F.PWR_THERM_LIM_NAND
  else if s ≤ 48 then d.fld Base.pwr F.PWR_THERM_LIM_DRAM
  else d.fld Base.pwr F.PWR_THERM_LIM_BANK

/-- A reading of a sensor. -/
def Dev.setTemp (d : Dev) (s : Nat) (v : Int) : Dev :=
  { d with pw := { d.pw with
      temp := put s v d.pw.temp,
      tempMax := put s (max v ((look s d.pw.tempMax).getD v)) d.pw.tempMax } }

/-- The swath islands (2 to 17). -/
def swathIslands : List Nat := (List.range 16).map (· + 2)

/-- Critical level of a sensor, in °C (Table 12-3). -/
def criticalOf (s : Nat) : Int := if s = 0 then 115 else if s ≤ 32 then 90 else if s ≤ 48 then 105 else 85

/-- A sensor's last reading is at its critical level. -/
def Dev.tooHot (d : Dev) : Bool :=
  (List.range 50).any fun s =>
    match look s d.pw.temp with
    | some v => decide (criticalOf s * 10 ≤ v)
    | none => false

/-- A reading at a critical level raises power-fail (R433). -/
def Dev.heatFail (d : Dev) : Dev := if d.tooHot && !d.pw.pfActive then d.raisePowerFail 4 else d

/-- A reading that reaches a sensor's warning level. -/
def Dev.heatWarn (d : Dev) (s : Fin 50) (v : Int) : Dev :=
  let d := d.setTemp s.val v
  if v < (d.limitOf s.val - 10) * 10 ∨ d.pw.warned.contains s.val then d
  else ({ d with pw := { d.pw with warned := insertNat s.val d.pw.warned } }).raise (shared 0x93)

/-- THERMAL_WARNING: a sensor reaches its warning level. -/
def doThermalWarning (s : Fin 50) (v : Int) (d : Dev) : Dev := (d.heatWarn s v).heatFail

/-- A reading that reaches a sensor's limit: the thermal level rises by 2 at once. -/
def Dev.heatLimit (d : Dev) (s : Fin 50) (v : Int) : Dev :=
  let d := d.setTemp s.val v
  if v < d.limitOf s.val * 10 ∨ d.pw.limited.contains s.val then d
  else
    let d := { d with pw := { d.pw with
      limited := insertNat s.val d.pw.limited, coolTicks := 0,
      slowT := if s.val = 0 then swathIslands else d.pw.slowT } }
    (d.raise (shared 0x94)).setLevels d.pw.levelP (min 12 (d.pw.levelT + 2))

/-- THERMAL_LIMIT: a sensor reaches its limit. -/
def doThermalLimit (s : Fin 50) (v : Int) (d : Dev) : Dev := (d.heatLimit s v).heatFail

/-- Every sensor is at least 5 °C below its limit; one never read counts as cool. -/
def Dev.allCool (d : Dev) : Bool :=
  (List.range 50).all fun s =>
    match look s d.pw.temp with
    | some v => decide (v ≤ (d.limitOf s - 5) * 10)
    | none => true

/-- Sensors at or over a level `less` °C below their limit. -/
def Dev.sensorsAt (d : Dev) (less : Int) : List Nat :=
  (List.range 50).filter fun s =>
    match look s d.pw.temp with
    | some v => decide ((d.limitOf s - less) * 10 ≤ v)
    | none => false

/-- One second of readings: the level rises by 2 while a sensor stays at its limit and falls by 1 every 10 s once all
are cool. -/
def Dev.heatTick (d : Dev) (reading : List (Nat × Int)) : Dev :=
  let was := d.pw.limited
  let d := (reading.filter fun r => decide (r.1 < 50)).foldl (fun d r => d.setTemp r.1 r.2) d
  let stay := was.filter fun s => (d.sensorsAt 0).contains s
  let cool := if d.allCool then d.pw.coolTicks + 1 else 0
  let d := { d with pw := { d.pw with
    limited := was.filter fun s => s == 0 || stay.contains s,
    warned := d.pw.warned.filter fun s => (d.sensorsAt 10).contains s, coolTicks := cool % 10 } }
  let t := if !stay.isEmpty then min 12 (d.pw.levelT + 2)
    else if cool = 10 then d.pw.levelT - 1 else d.pw.levelT
  d.setLevels d.pw.levelP t

/-- THERMAL_LEVEL_TICK. -/
def doThermalLevelTick (reading : List (Nat × Int)) (d : Dev) : Dev := (d.heatTick reading).heatFail

/-- THERMAL_BELOW_LIMIT: the controller junction falls below its limit; temperature no longer halves the swath
islands' clocks. -/
def doThermalBelowLimit (v : Int) (d : Dev) : Dev :=
  let d := d.setTemp 0 v
  if d.limitOf 0 * 10 ≤ v ∨ !d.hotController then d
  else { d with pw := { d.pw with
    limited := d.pw.limited.filter (· != 0), slowT := [] } }

/-! ### The hold-up bank (R435 to R438, Table 12-4) -/

/-- BANK_CHARGED: the bank has reached 35.0 V. -/
def doBankCharged (d : Dev) : Dev := { d with pw := { d.pw with charged := true } }

/-- N of R437: min(1,024, ⌊(E ÷ 1.5 − 400 mJ) ÷ 1.953 mJ⌋). -/
def unitsForEnergy (mj : Nat) : Nat := min 1024 ((2000 * mj - 1200000) / 5859)

/-- Health by E: 1 good, 2 degraded, 3 failed. -/
def healthForEnergy (mj : Nat) : Nat := if 3600 ≤ mj then 1 else if 790 ≤ mj then 2 else 3

/-- BANK_TEST: a test of the start, of TEST_NOW or of the period TEST_H measures E in mJ and sets N and the health; units beyond N drain, and a change from
the recorded health raises 0x97 and writes 0x0901. -/
def doBankTest (mj : Nat) (d : Dev) : Dev :=
  if !d.pw.charged || (!d.pw.testDue && d.fld Base.pwr F.PWR_HOLD_CTRL_TEST_H == 0) then d
  else
    let d := { d with pw := { d.pw with testDue := false } }
    let n := unitsForEnergy mj
    let h := healthForEnergy mj
    let b := Base.pwr
    let d := (d.setFld b F.PWR_HOLD_ENERGY_MJ (min mj 16383)).setFld b F.PWR_HOLD_UNITS n
    let d := d.setFld b F.PWR_HOLD_HEALTH h
    let d := { d with pw := { d.pw with capUnits := n }, sws := d.sws.map fun s => s.drainBeyond n }
    if d.boot.bankHealth = h then d
    else
      let d := { d with boot := { d.boot with bankHealth := h } }
      (d.raise (shared 0x97)).report 0x0901 Unit.power (if h = 3 then 4 else 2) mj h

/-! ### Power-fail (R439 to R442) -/

/-- The condition of a supply or a rail can arise in the envelope the drive runs in (Table 12-5). -/
def Dev.pfPossible (d : Dev) (code : Nat) : Bool :=
  if code = 0 then d.envelope == 1 else if code ≤ 2 then d.envelope == 2 else true

/-- The supply that fails no longer shows as good. -/
def Dev.supplyBad (d : Dev) (code : Nat) : Dev :=
  if code = 0 then d.setFld Base.pwr F.PWR_STAT_V12_OK 0
  else if code = 2 then d.setFld Base.pwr F.PWR_STAT_PD_OK 0
  else d

/-- POWER_FAIL. A start that finds its supply failing before the bank is charged waits (R440). -/
def doPowerFail (cause : PfCause) (d : Dev) : Dev :=
  match cause with
  | .supply k =>
    if !d.pfPossible k.val then d
    else if !d.pw.charged then d.supplyBad k.val
    else (d.supplyBad k.val).raisePowerFail k.val
  | .hot s v => (d.setTemp s.val v).heatFail

/-- V12_OVERVOLTAGE: the input switch opens; a drive fed from V12_IN loses its rails (R451). -/
def doV12Overvoltage (d : Dev) : Dev :=
  let d := d.setFld Base.pwr F.PWR_STAT_V12_OK 0
  if d.envelope = 1 && d.pw.charged then d.raisePowerFail 3 else d

/-- FLUSH_COMPLETE: the flush has run to its end, and the drive is down until it starts again. -/
def doFlushComplete (durUs : Nat) (d : Dev) : Dev :=
  if !d.pw.pfActive then d
  else
    let d := (allSwaths.filter fun n => !d.resetting (.swath n)).foldl (fun d n =>
      d.setFld (Base.sw n) F.SW_BUF_FLUSH_TIME_US (min 65535 (durUs / 4))) d
    d.goDown (if d.pw.pfCause = 4 then 4 else 1)

end Sys2Proof.Machine
end

