-- ==== Sys2Proof/Machine/Start.lean ====
section
/-!
DEFINITION. The start of the drive (chapter 15): choosing the firmware and settings slots, applying the
settings image, replay and ready; clean shutdown, trials and their confirmation; and FUNCTION_RESET.
-/
namespace Sys2Proof.Machine

/-! ### Firmware slots (Table 15-2); the Bool names slot B -/

def Boot.fw (b : Boot) (slotB : Bool) : SlotSt := if slotB then b.fwB else b.fwA

def Boot.setFw (b : Boot) (slotB : Bool) (x : SlotSt) : Boot :=
  if slotB then { b with fwB := x } else { b with fwA := x }

def Boot.hdr (b : Boot) (slotB : Bool) : Option FwHdr := if slotB then b.hdrB else b.hdrA

def Boot.secOf (b : Boot) (slotB : Bool) : Nat := ((b.hdr slotB).map (·.secVer)).getD 0

/-- FW_VERSION of a slot's image; of the image of manufacture, whose header the model does not hold, release 1.0.0
(R1; DESIGN CHOICE for the minor and patch numbers, log entry 74). -/
def Boot.verOf (b : Boot) (slotB : Bool) : Nat := ((b.hdr slotB).map (·.fwVer)).getD 0x010000

/-- FORMATS of a slot's image. -/
def Boot.formatsOf (b : Boot) (slotB : Bool) : Word := ((b.hdr slotB).map (·.formats)).getD 0

/-- FW_VERSION of the running image. -/
def Boot.runVer (b : Boot) : Nat := b.verOf b.fwSlotB

def Boot.inTrial (b : Boot) : Bool := b.fwA == .trial || b.fwB == .trial

/-- The first of the two slots in a state. -/
def Boot.fwIn (b : Boot) (x : SlotSt) : Option Bool :=
  if b.fwA = x then some false else if b.fwB = x then some true else none

/-- The slot a start would run: a due PENDING one, a TRIAL, and else the one kept (R538, R541). -/
def Boot.candidate (b : Boot) : Option Bool :=
  (if b.whenAt = 0 then b.fwIn .pending else none) <|> b.fwIn .trial <|> b.fwIn .active <|> b.fwIn .fallback

/-! ### Settings slots -/

def Boot.setOf (b : Boot) (slotB : Bool) : SlotSt := if slotB then b.setB else b.setA

def Boot.putSet (b : Boot) (slotB : Bool) (x : SlotSt) : Boot :=
  if slotB then { b with setB := x } else { b with setA := x }

def Boot.img (b : Boot) (slotB : Bool) : Option Settings := if slotB then b.imgB else b.imgA

def Boot.setIn (b : Boot) (x : SlotSt) : Option Bool :=
  if b.setA = x then some false else if b.setB = x then some true else none

/-- SERIES of the settings applied, for events. -/
def Boot.seriesLow (b : Boot) : Nat := b.set_.series % 2 ^ 32

/-- A settings trial that fails: its slot becomes EMPTY and the other is ACTIVE again (R556). -/
def Boot.dropTrial (b : Boot) : Boot :=
  let next (x : SlotSt) : SlotSt := match x with
    | .trial => .empty
    | .fallback => .active
    | x => x
  { b with setA := next b.setA, setB := next b.setB }

/-! ### BIST (R370, R371) -/

/-- An SRAM macro among those of its block: a swath's, or 16 for the host port and the steward. -/
def bistKey (m : MacroBist) : Nat := ((m.sw.map (·.val)).getD 16) * 65536 + m.id % 65536

/-- Spare rows of a macro. -/
def bistSpares (m : MacroBist) : Nat := if m.big then 4 else 2

/-- A macro has more failed rows than spares, those its fuse map and earlier starts have repaired among them. -/
def Boot.macroFails (b : Boot) (m : MacroBist) : Bool :=
  decide (bistSpares m < m.fused + lookD (bistKey m) 0 b.soft + m.failed)

/-- Blocks with a macro that fails. -/
def Boot.blocksFail (b : Boot) (i : StartIn) : List (Option (Fin 16)) := (i.bist.filter b.macroFails).map (·.sw)

/-- Failed rows take spare rows, which the steward journal records. -/
def Dev.repairRows (d : Dev) (i : StartIn) : Dev :=
  let good := i.bist.filter fun m => !d.boot.macroFails m
  { d with boot := { d.boot with
      soft := good.foldl (fun t m => put (bistKey m) (lookD (bistKey m) 0 d.boot.soft + m.failed) t) d.boot.soft } }

/-- Rows repaired in a swath, from its fuse maps and by BIST. -/
def Dev.showRows (d : Dev) (i : StartIn) (n : Fin 16) : Dev :=
  let fused := ((i.bist.filter fun m => m.sw == some n).map (·.fused)).sum
  let soft := ((d.boot.soft.filter fun e => e.1 / 65536 == n.val).map (·.2)).sum
  let b := Base.sw n
  (d.setFld b F.SW_SRAM_STAT_FUSED (min 255 fused)).setFld b F.SW_SRAM_STAT_SOFT (min 255 soft)

/-! ### The boot ROM's choice of firmware (R541 to R543, R546) -/

/-- The third failed try: the FALLBACK slot runs and is ACTIVE, the failed slot EMPTY; a settings trial
falls back with it. -/
def Dev.fallBack (d : Dev) (failed : Bool) : Dev :=
  let b := d.boot
  let ver := b.verOf failed
  let b := (b.setFw failed .empty).setFw (!failed) .active
  let d := { d with boot := { b with fwSlotB := !failed, tries := 0 } }
  let d := d.setFld Base.glb F.GLB_BOOT_STAT_FELL_BACK 1
  let d := (d.report 0x0B03 Unit.steward 3 3 ver).raise (shared 0xB1)
  if (d.boot.setIn .trial).isSome then
    let d := d.report 0x0B05 Unit.steward 3 1 d.boot.seriesLow
    { d with boot := d.boot.dropTrial }
  else d

/-- The slot runs: its header and payload pass their check, and its security version is not below the counter. -/
def Boot.runs (b : Boot) (i : StartIn) (slotB : Bool) : Bool :=
  (if slotB then i.fwCheckB else i.fwCheckA) && decide (b.secCount ≤ b.secOf slotB)

/-- Step 2: the slot that runs. Answers whether one does. -/
def Dev.bootFw (d : Dev) (i : StartIn) : Dev × Bool :=
  let stop (d : Dev) : Dev × Bool := ({ d with io := { d.io with faultN := true } }, false)
  match d.boot.candidate with
  | none => stop d
  | some s =>
    let b := d.boot
    let b := if b.fw s = .pending then { b.setFw s .trial with tries := 0 } else b
    let d := { d with boot := { b with fwSlotB := s } }
    if b.fw s = .trial then
      let tries := if b.runs i s then b.tries else b.tries + 1
      if 3 ≤ tries then
        if b.runs i (!s) then (d.fallBack s, true) else stop d
      else ({ d with boot := { d.boot with tries := tries } }, b.runs i s)
    else if b.runs i s then (d, true)
    else stop d

/-! ### Step 3: keys, calendar and the recorder's open interval -/

/-- Data keys for the key spaces of the settings: a pair already recorded keeps its key, an identifier
met first takes a key just drawn (R315). -/
def Boot.meetKeys (b : Boot) : List (Nat × Word) → List (BitVec 256) → Boot
  | [], _ => b
  | (sp, ident) :: t, draws =>
    let c : KeyCopy := { salt := b.saltA, key := draws.headD 0, whole := true }
    let fresh : DataKey := { ident := ident, key := c.key, gen := 1, unwrapBad := false, copyA := c, copyB := c }
    let use (b : Boot) (k : DataKey) : Boot := { b with keys := put sp k b.keys }
    match look sp b.keys with
    | none => (use b fresh).meetKeys t draws.tail
    | some k =>
      if k.ident = ident then b.meetKeys t draws
      else
        let kept : List (Nat × DataKey) := (sp, k) :: b.seenKeys
        match b.seenKeys.find? (fun (e : Nat × DataKey) => e.1 == sp && e.2.ident == ident) with
        | some e => (use { b with seenKeys := kept.filter (· != e) } e.2).meetKeys t draws
        | none => (use { b with seenKeys := kept } fresh).meetKeys t draws.tail

/-- Each data key is unwrapped from a stored copy that passes its integrity check; a key space of which neither does is
not defined (R317, R318). -/
def Boot.unwrapped (b : Boot) (k : DataKey) : DataKey :=
  if b.unwraps k.copyA then { k with key := k.copyA.key, unwrapBad := false }
  else if b.unwraps k.copyB then { k with key := k.copyB.key, unwrapBad := false }
  else { k with unwrapBad := true }

/-- The steward unwraps the data keys; `bad` names stored copies whose bytes have changed (true: copy B). -/
def Dev.unwrapKeys (d : Dev) (bad : List (Nat × Bool)) : Dev :=
  let spoilt (s : Nat) (k : DataKey) : DataKey := { k with
    copyA := { k.copyA with whole := k.copyA.whole && !bad.contains (s, false) },
    copyB := { k.copyB with whole := k.copyB.whole && !bad.contains (s, true) } }
  let ks : Tbl DataKey := d.boot.keys.map fun e => (e.1, d.boot.unwrapped (spoilt e.1 e.2))
  let d := { d with boot := { d.boot with keys := ks } }
  (d.boot.keys.filter fun e => e.2.unwrapBad).foldl (fun d e => d.report 0x0604 Unit.steward 4 e.1 0) d

/-- The calendar at start: it keeps its reading, or takes the one stored (R487 to R489). The first
estimate of the cell's reserve is still to come (R607). -/
def Dev.startCal (d : Dev) (i : StartIn) : Dev :=
  let off := if d.boot.cause = 1 then i.offSeconds else 0
  let d := if i.calKept then d else d.setFld Base.cal F.CAL_STAT_VALID 0
  let d := { d with cal := { d.cal with hadMin := false, hold := if d.boot.cause = 1 then 0 else d.cal.hold } }
  if d.flag Base.cal F.CAL_STAT_VALID then
    let d := { d with cal := { d.cal with tick := d.cal.tick + off * tickHz, uncertUs := d.cal.uncertUs + 20 * off } }
    if d.cal.savedTrust = 2 then d.setTrust 1 else d
  else
    let d := { d with cal := { d.cal with tick := d.cal.saved, uncertUs := d.cal.savedU } }
    d.setTrust 0

/-- The hash secret of a first start, every slot at its HOME, and the superblocks formed (R244, R246, R280). -/
def Dev.firstStart (d : Dev) (i : StartIn) : Dev :=
  if d.boot.everUp then d
  else
    let d := (List.range 256).foldl (fun d s => d.setSlot s { d.slot s with owner := (d.slot s).home, st := 0 })
      (d.updDisp fun x => { x with secret := i.newSecret })
    let d := (i.badShipped.map fun e => finSw e.1).eraseDups.foldl (fun d n =>
      d.updSw n fun s => s.formed ((i.badShipped.filter fun e => e.1 == n.val).map (·.2))) d
    let d := (allSwaths.filter d.ownsSlots).foldl (fun d n => d.setFld (Base.sw n) F.SW_MEM_CHK_CTRL_KILL_EN 0) d
    { d with boot := { d.boot with everUp := true, journalFormats := d.boot.formatsOf d.boot.fwSlotB } }

/-! ### Step 4: the settings image (R247, R553, R554, R557) -/

/-- A settings slot can be applied: it verifies, and its signer may set this drive (R561). -/
def Boot.mayApply (b : Boot) (slotB sig : Bool) : Bool :=
  sig && match b.img slotB with
    | some x => b.owner.isNone || x.signer != 1 || decide (x.series ≤ b.enrolSeries)
    | none => false

/-- The settings slot to use. -/
def Boot.chooseSet (b : Boot) (i : StartIn) : Option Bool :=
  let ok (s : Bool) : Bool := b.mayApply s (if s then i.setSigB else i.setSigA)
  let of (x : SlotSt) : Option Bool := if b.setA = x ∧ ok false then some false
    else if b.setB = x ∧ ok true then some true else none
  of .pending <|> of .trial <|> of .active <|> of .fallback

/-- Reset values only, with the owner key as the one trust anchor (R557). -/
def ownerSettings : Settings :=
  { Settings.reset with profiles := [(0, { mask := 0x1FF, map := BitVec.allOnes 256 })], anchors := [0] }

/-- A key space holds keys. -/
def Dev.spaceUsed (d : Dev) (space : Nat) : Bool :=
  allSwaths.any fun n => (d.sw n).keys.any fun k => k.space == space

def Dev.holdsKeys (d : Dev) : Bool := allSwaths.any fun n => !(d.sw n).keys.isEmpty

/-- SPACE entries that would change the PAIRING of a key space that holds keys are skipped: the space
keeps the definition it had. -/
def Dev.takeSpaces (d : Dev) (img : Settings) : Tbl SpaceDef × Bool :=
  img.spaces.foldl (fun r e =>
    let old := look e.1 d.boot.set_.spaces
    if d.spaceUsed e.1 && ((look e.1 d.boot.pairings).map fun p => p != e.2.pairing).getD false then
      (match old with
        | some o => put e.1 o r.1
        | none => r.1, true)
    else (put e.1 e.2 r.1, r.2)) ([], false)

/-- HOME and PARTNER of a slot under an image: what its PLACEMENT section says, and else s mod 16 and (s + 8) mod 16
(R246). -/
def Settings.place (img : Settings) (s : Nat) : Fin 16 × Fin 16 :=
  (look s img.placement).getD ((Slot.home0 s).home, (Slot.home0 s).partner)

/-- HOME and PARTNER are applied only while the drive holds no keys; OWNER and STATE stay the journal's (R247). An
entry whose PARTNER equals its HOME, or the slot's OWNER elsewhere, is skipped (R246). Answers whether a warning
is due. -/
def Dev.takePlacement (d : Dev) (img : Settings) : Dev × Bool :=
  let want := (List.range 256).filter fun s => (d.slot s).home != (img.place s).1 || (d.slot s).partner != (img.place s).2
  if want.isEmpty then (d, false)
  else if d.holdsKeys then (d, true)
  else
    let bad (s : Nat) : Bool :=
      (img.place s).1 == (img.place s).2 || (d.boot.everUp && (d.slot s).owner == (img.place s).2)
    ((want.filter fun s => !bad s).foldl (fun d s =>
      d.setSlot s { d.slot s with home := (img.place s).1, partner := (img.place s).2 }) d, want.any bad)

/-- A field of a REG entry that the register does not take as the image gives it: skipped (R554), or with
a value of the drive's in its place (R25, R390, R431). -/
def FieldDesc.warns (f : FieldDesc) (a : Nat) (w : Word) : Bool :=
  let v := bitsOf w f.lo f.width
  if 0x20400 ≤ a ∧ a < 0x20800 ∧ f.lo = 4 then decide (17 < v)
  else
    match f.lim with
    | none => false
    | some (lo, hi) => !decide (lo ≤ v ∧ v ≤ hi) || f.overTrip a w

/-- The settings warnings of a REG entry, one for the entry or one for each field (R554). -/
def regWarns (a : Nat) (w : Word) : List Nat :=
  match regDesc a with
  | none => [a]
  | some r =>
    if a % 4 ≠ 0 || r.fields.all (fun f => f.org == .h) then [a]
    else (r.fields.filter fun f => f.bySettings && f.warns a w).map fun _ => a

/-- Details of the settings warnings of an image's REG entries. -/
def Settings.regWarnings (img : Settings) : List Nat := img.regs.flatMap fun (e : Nat × Word) => regWarns e.1 e.2

/-- The registers of origin S and L take the image's values, but for the killed position of a swath that owns slots
(R366). -/
def Dev.takeRegs (d : Dev) : Dev :=
  let d := d.boot.set_.regs.foldl (fun d (e : Nat × Word) =>
    match regDesc e.1 with
    | none => d
    | some r => d.setReg e.1 (r.imageWrite e.1 (d.reg e.1) e.2)) d
  if d.boot.everUp then allSwaths.foldl Dev.noKill d else d

/-- An image that names a swath's gleaning levels leaves them out of order (R292). -/
def Dev.gleanWarnings (d : Dev) (img : Settings) : List Nat :=
  (allSwaths.filter fun n =>
    img.regs.any (fun (e : Nat × Word) => e.1 == Base.sw n + 0x604) && !d.gleanInOrder n).map
    fun n => Base.sw n + 0x604

/-- Settings warnings: one event each, and source 0xB3 once (R554). -/
def Dev.warnSettings (d : Dev) (ws : List Nat) : Dev :=
  let d := ws.foldl (fun d w => d.report 0x0004 Unit.steward 2 0 w) d
  if ws.isEmpty then d else ({ d with boot := { d.boot with warned := true } }).raise (shared 0xB3)

/-- The sections of an image, in the order of R553. -/
def Dev.applyImage (d : Dev) (img : Settings) (i : StartIn) : Dev :=
  let (spaces, spaceWarn) := d.takeSpaces img
  let patOk := bankChecks img.pattern
  let used := { img with spaces := spaces, pattern := if patOk then img.pattern else [] }
  let ps : Tbl Nat := spaces.foldl (fun t e => put e.1 e.2.pairing t) d.boot.pairings
  let d := { d with boot := { d.boot with set_ := used, pairings := ps } }
  let d := d.takeRegs
  let regWarn := img.regWarnings ++ d.gleanWarnings img
  let d := { d with boot := d.boot.meetKeys (spaces.map fun (e : Nat × SpaceDef) => (e.1, e.2.keyId)) i.newKeys }
  let (d, placeWarn) := d.takePlacement img
  let d := d.loadMatcher.setFld Base.pol F.POL_PA_CTRL_ACTIVE 0
  d.warnSettings (regWarn ++ (if spaceWarn then [0xFFFF0002] else []) ++
    (if placeWarn then [0xFFFF0005] else []) ++ (if patOk then [] else [0xFFFF0007]))

/-- Step 4: the image of the slot chosen, or recovery. -/
def Dev.applySettings (d : Dev) (i : StartIn) : Dev :=
  match d.boot.chooseSet i with
  | some s =>
    match d.boot.img s with
    | some x => ({ d with boot := { d.boot with setSlotB := s } }).applyImage x i
    | none => d
  | none =>
    let img := if d.boot.owner.isSome then ownerSettings else d.boot.factory
    let d := (d.setFld Base.glb F.GLB_START_STAT_RECOVERY 1).applyImage img i
    d.report 0x0B05 Unit.steward 3 2 d.boot.seriesLow

/-! ### Steps 6 to 9: the swaths -/

/-- A swath before it replays at start: BIST has passed or not, its fill is done, and its mark has been read, from one
of four lines (R359, R367, R370, R371, R375). -/
def Dev.startSwath (d : Dev) (i : StartIn) (fails : List (Option (Fin 16))) (n : Fin 16) : Dev :=
  let noMark := i.markBad.contains n.val
  let d := d.updSw n fun s => { s with failed := fails.contains (some n) || noMark, ready := true }
  let d := if noMark then (d.report 0x0703 (Unit.swath n) 4 0 0).jmLost n 4 else d
  let b := Base.sw n
  let d := (d.showRows i n).showRemap n
  let segs := ((i.badSegs.filter fun e => e.1 == n.val && decide (e.2 < 5632)).map (·.2))
  (d.updSw n fun s => { s with rebuild := segs.foldl (fun l g => insertNat g l) s.rebuild }).setFld b
    F.SW_MEM_STAT_FILLED (b2n !(d.sw n).failed)

/-- A swath with segments to rebuild stays offline and reports it (R267). -/
def Dev.showRebuild (d : Dev) (n : Fin 16) : Dev :=
  if (d.sw n).rebuild.isEmpty then d
  else (d.setFld (Base.sw n) F.SW_IDX_REBUILD_ACTIVE 1).setFld (Base.sw n) F.SW_IDX_REBUILD_PERMILLE 0

/-- Lines of the flush area and of packing pages that replay cannot read (R375). -/
def Dev.replayLines (d : Dev) (n : Fin 16) (flush pack : List (Nat × Nat)) : Dev :=
  pack.foldl (fun d e => d.lineLost n e.1 e.2) ((d.jmLost n flush.length).flushBeats n flush)

/-- Every swath replays; none takes commands before it reports ready. -/
def Dev.startSwaths (d : Dev) (i : StartIn) (fails : List (Option (Fin 16))) : Dev :=
  let d := allSwaths.foldl (fun d n => d.startSwath i fails n) d
  let cutOf (n : Fin 16) : List Nat := (i.cut.filter fun e => e.1 == n.val).map (·.2)
  let badOf (n : Fin 16) : List (Nat × Bool) := (i.badRecs.filter fun e => e.1 == n.val).map (·.2)
  let d := allSwaths.foldl (fun d n =>
    (d.replay n (!i.flushBad.contains n.val) (cutOf n) (badOf n)).showRebuild n) d
  let d := allSwaths.foldl (fun d n => d.markLag n) d
  let at_ (n : Fin 16) (l : List (Nat × Nat × Nat)) : List (Nat × Nat) := (l.filter fun e => e.1 == n.val).map (·.2)
  let d := allSwaths.foldl (fun d n => d.replayLines n (at_ n i.flushLines) (at_ n i.packLines)) d
  allSwaths.foldl (fun d n => d.updSw n fun s => { s with ready := false }) d

/-! ### Envelope and budget (R410 to R414) -/

/-- The envelope a start chooses; none leaves the controller in reset. -/
def Dev.chooseEnvelope (d : Dev) (i : StartIn) : Option Nat :=
  let copy := !(i.calKept && d.flag Base.cal F.CAL_STAT_VALID) || d.boot.heathEn
  if i.v12Good then some 1 else if copy && i.pdContract then some 2 else none

/-- Power at start: envelope, class, budget and power wait, changes from no power all of them (R442), and the bank's first
test is due (R436). -/
def Dev.startPower (d : Dev) (i : StartIn) (env : Nat) : Dev :=
  let b := Base.pwr
  let d := (d.setFld b F.PWR_STAT_ENVELOPE env).setFld b F.PWR_STAT_V12_OK (b2n i.v12Good)
  let d := (d.setFld b F.PWR_STAT_PD_OK (b2n i.pdContract)).setFld b F.PWR_STAT_CLASS
    (if i.pdContract then i.pdClass else 0)
  let mw := if env = 1 then meadowBudget else heathBudget i.pdClass none
  let d := (d.raise (shared 0x91)).setBudget mw
  let d := { d with pw := { d.pw with testDue := true } }
  if env = 2 ∧ mw < 47000 then d.setWait true else d

/-! ### POWER_GOOD_START -/

/-- The class gate levels start at CT_BASE, and one open gate entry runs (R53, R59). -/
def Dev.startPorts (d : Dev) : Dev :=
  allPorts.foldl (fun d p => d.setFld (Base.prt p) F.PRT_CT_LEVEL_LEVEL
    (d.fld (Base.prt p) F.PRT_CT_CT_BASE * 0o11111111)) d

/-- Event 0x0904 of the power-fail that ended the last run (R442). -/
def Dev.notePowerFail (d : Dev) : Dev :=
  if d.pw.pfPend then
    ({ d with pw := { d.pw with pfPend := false } }).report 0x0904 Unit.power 3 d.pw.pfCause 0
  else d

/-- Entries that power loss made in the deferred-error log raise their interrupt (R200, R209). -/
def Dev.noteDeferred (d : Dev) : Dev :=
  if d.disp.defDue then (d.updDisp fun x => { x with defDue := false }).raise (shared 0x30) else d

/-- Migration goes on where the journal's formats are not the running image's, except in a trial
(R541, R547). -/
def Dev.noteMigration (d : Dev) : Dev :=
  let due := d.boot.journalFormats != d.boot.formatsOf d.boot.fwSlotB && !d.boot.inTrial
  d.setFld Base.glb F.GLB_START_STAT_MIGRATING (b2n due)

/-- The start of Table 15-3 up to the moment before the swaths report ready. -/
def Dev.start (d : Dev) (i : StartIn) : Dev :=
  match d.chooseEnvelope i with
  | none => d
  | some env =>
    let fails := d.boot.blocksFail i
    let d := d.repairRows i
    let d := { d with io := { d.io with ledAct := true } }
    if fails.contains none then { d with io := { d.io with faultN := true } }
    else
      let d := { d with io := { d.io with faultN := false } }
      match d.bootFw i with
      | (d, false) => d
      | (d, true) =>
        let cause := if d.boot.clean then 0 else d.boot.cause
        let d := (d.closeInterval true).notePowerFail
        let b := Base.glb
        let d := d.bump b F.GLB_START_COUNT_COUNT
        let d := (d.setFld b F.GLB_START_STAT_CLEAN (b2n (cause == 0))).setFld b F.GLB_START_STAT_CAUSE cause
        let d := d.startCal i
        let d := { d with boot := { d.boot with
          clean := false, warned := false, goodAt := d.now, secCount := max d.boot.secCount d.boot.secWant } }
        let d := (((d.applySettings i).firstStart i).unwrapKeys i.unwrapBad).startPorts
        let d := if d.trusted && decide (d.maxUncertMs < d.uncertMs) then d.setTrust 0 else d
        let d := { d with boot := { d.boot with heathEn := d.flag Base.pwr F.PWR_CTRL_HEATH_EN } }
        if env = 2 ∧ !d.boot.heathEn then ((d.report 0x0004 Unit.steward 2 0 Base.pwr).takeIntake).goDown 1
        else
          let d := d.startPower i env
          let d := (d.startSwaths i fails).restartSlot.noteDeferred.noteMigration
          let d := d.setFld b F.GLB_AW_LOCK_LOCKED 1
          { d with boot := { d.boot with running := true } }

/-- A drive held in reset by RST_IN_N has lost its power and gains it again: every input counts as inactive (R464). -/
def Dev.powerBack (d : Dev) : Dev :=
  if !d.io.holdReset then d
  else
    { d with
      io := { d.io with
        holdReset := false, holdA := InputSt.reset, holdB := InputSt.reset,
        rst := { InputSt.reset with stuck := d.io.rst.stuck } },
      boot := { d.boot with cause := 1 } }

/-- POWER_GOOD_START: power-good, unless a critical temperature holds the drive. -/
def doPowerGoodStart (i : StartIn) (d : Dev) : Dev :=
  if d.boot.running || d.pw.pfActive || d.pw.stopped then d else d.powerBack.start i

/-! ### SWATH_READY and DRIVE_READY (R435, R471, R517 to R519, R555) -/

/-- Activations of HOLD_A and HOLD_B accepted before a swath's ready, and those in force, are applied before its first
data command. -/
def Dev.readyHolds (d : Dev) (n : Fin 16) : Dev :=
  let on := ([HoldIn.holdA, HoldIn.holdB].filter fun h => d.inputOn (holdToDiscrete h)).map fun h =>
    (h, (d.input (holdToDiscrete h)).since)
  let due := (d.sw n).holdDue
  (due ++ on.filter fun e => !due.contains e).foldl (fun d e => d.holdSweep n e.1 e.2)
    (d.updSw n fun s => { s with holdDue := [] })

/-- Swaths may be released: the bank is charged, and its test of the start has found it good or degraded (R435, Table
12-4). -/
def Dev.bankOk (d : Dev) : Bool :=
  let h := d.fld Base.pwr F.PWR_HOLD_HEALTH
  d.pw.charged && h != 0 && h != 3

/-- Waiting jobs resume (R518, R567): tests show again in their swaths, an evacuation in its status, and a SANITIZE
goes on from each swath's last mark (R574). -/
def Dev.resumeJobs (d : Dev) : Dev :=
  let waiting := d.adm.jobs.filter fun e => e.2.st == 4
  let jobs : Tbl Job := d.adm.jobs.map fun e => (e.1, if e.2.st == 4 then { e.2 with st := 1 } else e.2)
  let d := ({ d with adm := { d.adm with jobs := jobs } }).showEvac.takeSlot
  (waiting.foldl (fun d (e : Nat × Job) =>
    if e.1 / 256 = 4 then
      let b := Base.sw (finSw (e.1 % 256))
      (d.setFld b F.SW_TST_STAT_TEST e.2.act).setFld b F.SW_TST_STAT_ACTIVE 1
    else d) d).showWipe

/-- The drive is ready: the start is recorded, the settings slot settles, and waiting jobs resume. -/
def Dev.driveReady (d : Dev) : Dev :=
  let b := Base.glb
  let d := d.setFld b F.GLB_START_STAT_READY 1
  let d := d.setFld b F.GLB_START_TIME_MS (min 65535 ((d.now - d.boot.goodAt) * 1000 / tickHz))
  let d := d.report 0x0001 Unit.steward 0 (d.fld b F.GLB_START_STAT_CAUSE) d.boot.runVer
  let d := if d.boot.setOf d.boot.setSlotB = .pending ∧ !d.flag b F.GLB_START_STAT_RECOVERY then
      if d.fld b F.GLB_BOOT_CTRL_SET_GUARD_M = 0 then d.settleSettings
      else { d with boot := d.boot.putSet d.boot.setSlotB .trial }
    else d
  ({ d with io := { d.io with ledAct := false } }).resumeJobs

/-- Every swath is ready, or one that does not start. -/
def Dev.allReady (d : Dev) : Bool :=
  allSwaths.all fun n => (d.sw n).ready || (d.sw n).failed || (d.sw n).leftOff

/-- SWATH_READY: the swath reports ready, once the bank is charged and its test has set N. -/
def doSwathReady (n : Fin 16) (d : Dev) : Dev :=
  let s := d.sw n
  if s.ready || s.failed || s.leftOff || d.resetting (.swath n) || d.pw.waiting || !d.bankOk then d
  else
    let d := (d.recount n).updSw n fun s => { s with ready := true }
    let d := d.readyHolds n
    if d.allReady && !d.flag Base.glb F.GLB_START_STAT_READY then d.driveReady else d

/-! ### Starts by other causes (R433, R466 to R468, R542) -/

/-- THERMAL_RESTART: the sensors have cooled 5 °C below the settings' limits. -/
def doThermalRestart (i : StartIn) (reading : List (Nat × Int)) (d : Dev) : Dev :=
  if !d.pw.stopped || d.boot.running || d.pw.pfActive || d.io.holdReset then d
  else
    let d := d.setReg 0x10048 (d.imageWord 0x10048)
    let d := (reading.filter fun r => decide (r.1 < 50)).foldl (fun d r => d.setTemp r.1 r.2) d
    if !d.allCool then d else ({ d with pw := { d.pw with stopped := false } }).start i

/-- The drive leaves the reset RST_IN_N held it in. -/
def Dev.releaseReset (d : Dev) (i : StartIn) : Dev :=
  if !d.io.holdReset then d
  else
    let d := { d with io := { d.io with holdReset := false } }
    if d.boot.running || d.pw.pfActive || d.pw.stopped then d else d.start i

/-- RST_IN_RELEASE. -/
def doRstInRelease (i : StartIn) (d : Dev) : Dev := ((d.acceptChange .rstInN false).1).releaseReset i

/-- INPUT_STUCK: an input active for STUCK_S seconds counts as inactive from here on. -/
def doInputStuck (inp : Discrete) (i : StartIn) (d : Dev) : Dev :=
  let x := d.input inp
  if !x.active || x.stuck || x.susp then d
  else
    let d := d.setInput inp { x with stuck := true }
    let d := if inp = .rstInN then d.releaseReset i else d
    (d.raise (shared 0xAA)).report 0x0902 Unit.inputs 2 (inputNo inp) 0

/-- INPUT_SUSPEND_END: the input takes its debounced level; an active one counts as an activation
accepted now. -/
def doInputSuspendEnd (inp : Discrete) (d : Dev) : Dev :=
  let x := d.input inp
  if !x.susp then d
  else
    let d := d.setInput inp { x with
      susp := false, suspS := 0, stuck := false, since := d.io.hold, recent := if x.active then [d.now] else [] }
    if !d.inputOn inp then d
    else
      match inp with
      | .holdA => (d.raise (shared 0xA8)).holdActivated .holdA
      | .holdB => (d.raise (shared 0xA9)).holdActivated .holdB
      | .rstInN => d.rstActivated

/-- TRIAL_WATCHDOG: 60 s after power-good a trial has not reported every swath as ready, rebuilding or offline. -/
def doTrialWatchdog (i : StartIn) (d : Dev) : Dev :=
  if !d.boot.inTrial || d.pw.waiting ||
      allSwaths.all (fun n => (d.sw n).ready || (d.sw n).failed || (d.sw n).leftOff || !(d.sw n).rebuild.isEmpty) then d
  else (d.failTry.driveReset 2).start i

/-! ### Clean shutdown (R520 to R522) -/

/-- The open packing page closes. -/
def Swath.closePack (s : Swath) : Swath :=
  match s.packOpen with
  | some p => s.padPage p
  | none => s

/-- SHUTDOWN: new data commands are refused; drains and checkpoint passes begin. -/
def doShutdown (d : Dev) : Dev :=
  if d.shutting then d
  else
    let d := d.setFld Base.glb F.GLB_START_STAT_SHUTTING 1
    (allSwaths.filter fun n => (d.sw n).ready).foldl (fun d n => ((d.updSw n Swath.closePack).drainNow n).startPass n) d

/-- Nothing of a swath lies outside NAND and its checkpoint. -/
def Swath.drained (s : Swath) : Bool :=
  s.units.isEmpty && s.pack.all (fun e => e.2.items.isEmpty) && s.ring.isEmpty && s.pass.isNone

/-- SHUTDOWN_COMPLETE: with every command complete and every swath drained, the mark is written. A
shutdown that a restart asked for goes on to the restart. -/
def doShutdownComplete (d : Dev) : Dev :=
  let busy := d.disp.cmds.any fun e => isData e.2.op && e.2.st != .complete
  if !d.flag Base.glb F.GLB_START_STAT_SHUTTING || busy ||
      allSwaths.any fun n => (d.sw n).ready && !(d.sw n).drained then d
  else
    let d := (d.setFld Base.glb F.GLB_START_STAT_SHUTTING 0).setFld Base.glb F.GLB_START_STAT_SHUT_DONE 1
    let d := { d with boot := { d.boot with clean := true } }
    if d.boot.restart then d.driveReset 2 else d

/-- A clean shutdown that ends in a start as after a DRIVE reset. -/
def Dev.shutAndRestart (d : Dev) : Dev :=
  doShutdown { d with boot := { d.boot with restart := true } }

/-! ### Confirming a trial (R544, R545, R548, R555, R556) -/

/-- A migration begins: each swath writes every segment in the new format. -/
def Dev.beginMigration (d : Dev) : Dev :=
  let d := ({ d with boot := { d.boot with migrated := [] } }).noteMigration
  if d.flag Base.glb F.GLB_START_STAT_MIGRATING then
    (allSwaths.filter fun n => (d.sw n).ready).foldl (fun d n => doCkptForce n d) d
  else d

/-- The running TRIAL is confirmed: the counter rises to its SEC_VERSION. -/
def Dev.confirmFw (d : Dev) : Dev :=
  match d.boot.fwIn .trial with
  | none => d
  | some s =>
    let b := d.boot
    let sec := max b.secCount (b.secOf s)
    let other := if b.fw (!s) = .fallback then .superseded else b.fw (!s)
    let b := (b.setFw s .active).setFw (!s) other
    let d := { d with boot := { b with secWant := sec, secCount := sec, tries := 0 } }
    d.beginMigration.report 0x0B04 Unit.steward 1 sec (d.boot.verOf s)

/-- CONFIRM: a firmware trial and a settings trial are confirmed. -/
def doConfirm (d : Dev) : Dev := d.confirmFw.confirmSettings

/-- TRIAL_CONFIRM_TIMER: the drive has been ready for CONFIRM_S seconds. -/
def doTrialConfirmTimer (d : Dev) : Dev :=
  if !d.flag Base.glb F.GLB_START_STAT_READY || d.fld Base.glb F.GLB_BOOT_CTRL_CONFIRM_S == 0 then d
  else d.confirmFw

/-- SETTINGS_GUARD_TIMEOUT: the drive returns to the other settings slot by a clean shutdown and a
start. -/
def doSettingsGuardTimeout (d : Dev) : Dev :=
  if (d.boot.setIn .trial).isNone || d.fld Base.glb F.GLB_BOOT_CTRL_SET_GUARD_M == 0 then d
  else
    let d := d.report 0x0B05 Unit.steward 3 0 d.boot.seriesLow
    ({ d with boot := d.boot.dropTrial }).shutAndRestart

/-- MIGRATION_COMPLETE: every swath has finished. -/
def doMigrationComplete (d : Dev) : Dev :=
  if !d.flag Base.glb F.GLB_START_STAT_MIGRATING ||
      allSwaths.any fun n => !(d.sw n).failed && !d.boot.migrated.contains n.val then d
  else
    let f := d.boot.formatsOf d.boot.fwSlotB
    let d := { d with boot := { d.boot with journalFormats := f, migrated := [] } }
    let d := d.setFld Base.glb F.GLB_START_STAT_MIGRATING 0
    (d.report 0x0B06 Unit.steward 1 0 f.toNat).raise (shared 0xB4)

/-- ACTIVATION_WHEN: time is trusted and has reached WHEN of a PENDING image. -/
def doActivationWhen (d : Dev) : Dev :=
  if d.boot.whenAt = 0 ∨ d.cal.tick < d.boot.whenAt ∨ !d.trusted ∨ (d.boot.fwIn .pending).isNone then d
  else ({ d with boot := { d.boot with whenAt := 0 } }).shutAndRestart

/-! ### FUNCTION_RESET (R168, R407) -/

/-- A name as 16 bytes of ASCII padded with 0x00. -/
def asciiName (l : List Char) : List Byte := padTo 16 (l.map fun c => BitVec.ofNat 8 c.toNat)

/-- The functions by name. -/
def fnNames : List (List Byte × Fn) :=
  [(asciiName "PORT_A".toList, .port .a), (asciiName "PORT_B".toList, .port .b),
    (asciiName "PORT_C".toList, .port .c), (asciiName "SESSION_ENGINE".toList, .sessionEngine),
    (asciiName "POLICY_MATCHER".toList, .policyMatcher), (asciiName "DISPATCHER".toList, .dispatcher),
    (asciiName "NOTIFICATION".toList, .notification), (asciiName "EVENT_RECORDER".toList, .eventRecorder),
    (asciiName "DRIVE".toList, .drive)] ++
  (allSwaths.map fun n =>
    (asciiName ("SWATH_".toList ++ (if n.val < 10 then [] else ['1']) ++ [Char.ofNat (48 + n.val % 10)]), Fn.swath n))

/-- The function a NAME names. -/
def fnOfName (l : List Byte) : Option Fn := (fnNames.find? fun e => e.1 == l).map (·.2)

/-- The named function carries the request's own path. -/
def ownPath (p : PortId) : Fn → Bool
  | .port q => p == q
  | .sessionEngine => true
  | .policyMatcher => true
  | .dispatcher => true
  | .drive => true
  | _ => false

/-- A function's own-path reset begins. -/
def Dev.resetOwn (d : Dev) (f : Fn) : Dev :=
  if f = .drive then d.driveReset 2 else if d.resetting f then d else d.beginReset f 0

/-- The answer of a command has been sent, or can no longer be. -/
def Dev.answerGone (d : Dev) (cid : Nat) : Bool :=
  match d.cmd cid with
  | none => true
  | some c => c.answered && (d.unsentOf c.sid cid).isEmpty

/-- Resets whose own answers have been sent begin (R168). -/
def Dev.beginDue (d : Dev) : Dev :=
  let now := d.irq.due.filter fun e => d.answerGone e.2
  now.foldl (fun d e => d.resetOwn e.1)
    { d with irq := { d.irq with due := d.irq.due.filter fun e => !(now.contains e) } }

/-- FUNCTION_RESET: an own-path reset waits until its answer has been sent. -/
def doFunctionReset (cid : Nat) (d : Dev) : Dev :=
  d.mgmt cid Op.functionReset fun c x =>
    match fnOfName (slice c.payload 0 16) with
    | none => d.answer cid St.malformed []
    | some f =>
      if d.resetting f then d.answer cid St.busy []
      else if ownPath x.port f then
        let d := d.answer cid St.ok (zeros 8)
        { d with irq := { d.irq with due := d.irq.due ++ [(f, cid)] } }
      else
        let d := (d.updCmd cid fun y => { y with st := .running }).beginReset f 0
        { d with irq := { d.irq with asker := put (fnNo f) cid d.irq.asker } }

/-- What the reset's end does in a swath: replay and ready, or the swath stays offline after a third
reset by the steward (R589). -/
def Dev.endSwathReset (d : Dev) (n : Fin 16) (x : ReplayLoss) : Dev :=
  let d := d.raise (shared (0x70 + n.val))
  let steps := (look n.val d.irq.steps).getD []
  let d := (((d.replay n (!x.sealBad) x.cut x.bad.toList).markLags n).replayLines n x.lines x.pack).showRebuild n
  if 3 ≤ steps.length then
    let cause := ((look n.val d.irq.rst).map (·.cause)).getD 0
    (d.updSw n fun s => { s with leftOff := true }).report 0x0C02 (Unit.swath n) 3 steps.length cause
  else if d.pw.waiting || (d.sw n).failed || (d.sw n).leftOff || !d.bankOk then d
  else (d.updSw n fun s => { s with ready := true }).readyHolds n

/-- Signals of a function's shared sources, held low under its reset, rise again with its end: an assertion
(R395, R406). -/
def Dev.signalsRise (d before : Dev) (f : Fn) : Dev :=
  ((List.range 256).filter fun k => srcFn k == some f && !before.signal k && d.signal k).foldl
    (fun d k => d.setSrc k (countAssert (d.src k))) d

/-- FUNCTION_RESET_COMPLETE: step 5 of R406 and, for a swath, step 6. -/
def doFunctionResetComplete (f : Fn) (us : Nat) (lost : ReplayLoss) (d : Dev) : Dev :=
  match fnBit f with
  | none => d
  | some k =>
    if !d.resetting f then d
    else
      let d := (d.setFld Base.glb F.GLB_RST_STAT_ACTIVE (setBit (d.fld Base.glb F.GLB_RST_STAT_ACTIVE) k false)).signalsRise d f
      let i := (look k d.irq.rst).getD { count := 0, cause := 0, us := 0 }
      let d := { d with irq := { d.irq with rst := put k { i with us := us % 2 ^ 32 } d.irq.rst } }
      let d := match f with
        | .swath n => (d.endSwathReset n lost).resumeEvac
        | .dispatcher => d.resumeEvac
        | _ => d
      match look k d.irq.asker with
      | none => d
      | some cid =>
        let d := { d with irq := { d.irq with asker := del k d.irq.asker } }
        d.answer cid St.ok (be 4 us ++ zeros 4)

end Sys2Proof.Machine
end

