-- ==== Sys2Proof/Machine/Irq.lean ====
section
/-!
DEFINITION. Freezing, the interrupt controller and the notification engine (chapter 11): window
violations, claims and completions, the storm limiter, NOTIFY and its completion.
-/
namespace Sys2Proof.Machine

/-! ### Access windows and freezing (Table 11-2, R380 to R385) -/

/-- The function that holds a windowed master; none for the steward's two masters. -/
def masterFn (m : Nat) : Option Fn :=
  if 1 ≤ m ∧ m ≤ 16 then some (.swath (finSw (m - 1)))
  else if 17 ≤ m ∧ m ≤ 144 then some (.swath (finSw ((m - 17) / 8)))
  else if m = 145 then some .notification
  else if m = 146 then some .eventRecorder
  else none

/-- The unit of a function in event records. -/
def fnUnit : Fn → Nat
  | .swath n => Unit.swath n
  | .notification => Unit.notify
  | .eventRecorder => Unit.recorder
  | _ => Unit.steward

/-- The function shows frozen in GLB_FRZ_STAT, and its source rises. -/
def Dev.setFrozen (d : Dev) : Fn → Dev
  | .swath n =>
    d.setCond Base.glb F.GLB_FRZ_STAT_SWATHS (setBit (d.fld Base.glb F.GLB_FRZ_STAT_SWATHS) n.val true) (0x50 + n.val)
  | .notification => d.setCond Base.glb F.GLB_FRZ_STAT_NOTIFICATION 1 0x89
  | .eventRecorder => d.setCond Base.glb F.GLB_FRZ_STAT_EVENT_RECORDER 1 0x89
  | _ => d

/-- The first freeze is latched. -/
def Dev.latchFreeze (d : Dev) (m addr right pc : Nat) : Dev :=
  let b := Base.glb
  if d.flag b F.GLB_FRZ_INFO_VALID then d
  else
    let d := (d.setFld b F.GLB_FRZ_INFO_MASTER m).setFld b F.GLB_FRZ_INFO_RIGHT right
    let d := (d.setFld b F.GLB_FRZ_ADDR_LO_ADDR (addr % 2 ^ 32)).setFld b F.GLB_FRZ_ADDR_HI_ADDR (addr / 2 ^ 32)
    let d := d.setFld b F.GLB_FRZ_PC_PC (if 1 ≤ m ∧ m ≤ 16 then pc else 0)
    d.setFld b F.GLB_FRZ_INFO_VALID 1

/-- WINDOW_VIOLATION: the access is not performed. The steward's own masters reset the drive; any other
master is frozen, unless its function's reset wins. -/
def doWindowViolation (m : Fin 148) (addr : BitVec 40) (right : Fin 3) (pc : BitVec 32) (d : Dev) : Dev :=
  match masterFn m.val with
  | none => d.stewardFault
  | some f =>
    let low := addr.toNat % 2 ^ 32
    if d.resetting f then d.report 0x0802 (fnUnit f) 2 m.val low
    else if d.fnFrozen f then d
    else
      let d := d.report 0x0801 (fnUnit f) 3 m.val low
      (d.latchFreeze m.val addr.toNat right.val pc.toNat).setFrozen f

/-- FREEZE_AUTO_RESET: AUTO_S seconds after the freeze. -/
def doFreezeAutoReset (f : Fn) (d : Dev) : Dev :=
  if !d.fnFrozen f || d.resetting f || d.fld Base.glb F.GLB_FRZ_CTRL_AUTO_S == 0 then d
  else d.beginReset f 1

/-- MAILBOX_TIMEOUT: a core that has not answered for 2 s is reset. -/
def doMailboxTimeout (n : Fin 16) (d : Dev) : Dev :=
  if d.swFrozen n || (d.sw n).failed || (d.sw n).leftOff then d else d.stewardReset n 3

/-! ### Sources asserted (R391, R395, R400, R401) -/

/-- Shared sources Table 11-6 lists. -/
def sharedListed (s : Nat) : Bool :=
  s ∈ [0x00, 0x01, 0x02, 0x03, 0x04, 0x08, 0x09, 0x0A, 0x0B, 0x0C, 0x10, 0x11, 0x12, 0x13, 0x14,
      0x18, 0x20, 0x21, 0x22, 0x23, 0x28, 0x29, 0x2A, 0x2B, 0x30, 0x31, 0x32, 0x33, 0x80, 0x81, 0x82, 0x88,
      0x89, 0x8B] ||
    decide (0x40 ≤ s ∧ s < 0x80) || decide (0x90 ≤ s ∧ s ≤ 0x97) || decide (0xA0 ≤ s ∧ s ≤ 0xA4) ||
    decide (0xA8 ≤ s ∧ s ≤ 0xAC) || decide (0xB0 ≤ s ∧ s ≤ 0xB5)

/-- IRQ_SOURCE_ASSERT: an event of a source of kind E, or an edge of a source of kind C too short to be
sampled. The signal of an ID no table lists, or of a function under reset, stays low. Target 17's private
sources follow only the software registers. -/
def doIrqSourceAssert (target : Fin 18) (src : Nat) (d : Dev) : Dev :=
  if src < 0x100 then
    let held := ((srcFn src).map d.resetting).getD false
    if !sharedListed src || held then d
    else if kindC src then d.pulse (shared src)
    else d.raise (shared src)
  else if 0x140 ≤ src ∨ target = 17 then d
  else
    let p := src - 0x100
    if 1 ≤ target.val ∧ d.resetting (.swath (finSw (target.val - 1))) then d
    else if 1 ≤ target.val ∧ kindCPriv p then d.pulse (priv target.val p)
    else d.raise (priv target.val p)

/-! ### Claim and completion (R393, R394, R396, R398) -/

/-- The better of two sources: higher PRIO, and on a tie the lower ID. -/
def Dev.better (d : Dev) (a b : Nat) : Nat :=
  if d.srcPrio a < d.srcPrio b ∨ (d.srcPrio a = d.srcPrio b ∧ srcId b < srcId a) then b else a

/-- The deliverable source a claim by a target takes. -/
def Dev.bestSource (d : Dev) (t : Nat) : Option Nat :=
  let ks := (List.range 256).filter (fun k => d.srcTarget k == t) ++ (List.range 64).map (priv t)
  (ks.filter d.deliverable).foldl (fun b k => match b with
    | none => some k
    | some x => some (d.better x k)) none

/-- What a claim register reads as for a source (Table 11-10). -/
def Dev.claimWord (d : Dev) (k : Nat) : Word :=
  withBits (withBits (withBits (withBits 0 0 10 (srcId k)) 16 8 (d.src k).events) 24 4 (d.srcPrio k)) 31 1 1

def Dev.setClaimRead (d : Dev) (t : Nat) (w : Word) : Dev :=
  { d with irq := { d.irq with claimRead := putD t 0 w d.irq.claimRead } }

/-- The claim would be one too many in this millisecond. -/
def Dev.overStorm (d : Dev) (k : Nat) : Bool :=
  let most := d.fld Base.irq F.IRQ_CTRL_STORM_MAX
  most != 0 && k != 0x8B && decide (most ≤ (d.src k).claims)

/-- The storm limiter masks a source. -/
def Dev.stormMask (d : Dev) (k : Nat) : Dev :=
  let d := d.setSrc k { d.src k with storm := true }
  ((d.raise (shared 0x8B)).bump Base.irq F.IRQ_STORM_COUNT_COUNT).report 0x0803 Unit.steward 2 (srcId k) 0

/-- A source enters SERVICE at a target: its latch clears and EVENTS goes to 0. -/
def Dev.takeSource (d : Dev) (t k : Nat) : Dev :=
  let x := d.src k
  d.setSrc k { x with service := true, by_ := t, latch := false, events := 0, claims := x.claims + 1 }

/-- A claim by a target's own master. Answers the source claimed. -/
def Dev.claim (d : Dev) (t : Nat) : Dev × Option Nat :=
  match d.bestSource t with
  | none => (d.setClaimRead t 0, none)
  | some k =>
    if d.overStorm k then ((d.stormMask k).setClaimRead t 0, none)
    else ((d.setClaimRead t (d.claimWord k)).takeSource t k, some k)

/-- The master of a target runs. -/
def Dev.targetRuns (d : Dev) (t : Nat) : Bool :=
  if t = 0 then true
  else if t = 17 then !d.fnFrozen .notification && !d.resetting .notification
  else !d.swFrozen (finSw (t - 1)) && !d.resetting (.swath (finSw (t - 1)))

/-- The session NOTIFY goes out on (R403): one whose next number is not kept for the end of its epoch (R114). -/
def Dev.ntfSession (d : Dev) : Option Nat :=
  let fit (c : Ctx) : Bool := c.st == .opened && d.hasPerm c 4 && c.numberLeft
  let want := d.fld Base.irq F.IRQ_NTF_CTRL_SID
  match d.ctx want with
  | some c => if fit c then some want else first fit
  | none => first fit
where
  first (fit : Ctx → Bool) : Option Nat :=
    ((d.ses.ctx.filter fun e => fit e.2).foldl (fun b e => match b with
      | none => some e
      | some x => if e.2.openNo < x.2.openNo then some e else some x) (none : Option (Nat × Ctx))).map (·.1)

/-- The engine claims a source and sends its NOTIFY, in class 7 with the tagging of the session's last request
(R51, R402, R173). -/
def doNotifyClaim (d : Dev) : Dev :=
  if !d.flag Base.irq F.IRQ_NTF_CTRL_EN || !d.targetRuns 17 ||
      decide (d.fld Base.irq F.IRQ_NTF_CTRL_MAX_OUT ≤ d.irq.out.length) then d
  else
    match d.ntfSession with
    | none => d
    | some sid =>
      let prioOf := d.srcPrio
      let eventsOf (k : Nat) : Nat := (d.src k).events
      let r := d.claim 17
      match r.2 with
      | none => r.1
      | some k =>
        let p := be 2 (srcId k) ++ be 1 17 ++ be 1 (prioOf k) ++ be 1 (eventsOf k) ++ zeros 3 ++ be 8 d.stamp
        let via : Via := { ((d.ctx sid).map (·.via)).getD (Via.bare 7) with cls := 7 }
        let d : Dev := r.1.send sid
          { op := Op.notify, status := St.ok, space := 0, tag := 0, more := false, payload := p, via := via,
            reqSeq := none, cid := none, swath := none, ownRec := none } (fun _ => 0)
        let o : NtfOut := { src := srcId k, sid := sid }
        let d := { d with irq := { d.irq with out := d.irq.out ++ [o] } }
        d.bump Base.irq F.IRQ_NTF_SENT_COUNT

/-- IRQ_CLAIM: a read of a claim register. Target 17's own master is the notification engine. `masked`
tells that a write in the same cycle left the chosen source undeliverable. -/
def doIrqClaim (t : Fin 18) (m : IrqMaster) (masked : Bool) (d : Dev) : Dev :=
  match m with
  | .other => d.setClaimRead t.val (((d.bestSource t.val).map d.claimWord).getD 0)
  | .own =>
    if !d.targetRuns t.val then d
    else if masked then d.setClaimRead t.val 0
    else if t = 17 then doNotifyClaim d
    else (d.claim t.val).1

/-- The NOTIFY of a source no longer awaits completion. -/
def Dev.dropOut (d : Dev) (id : Nat) : Dev :=
  { d with irq := { d.irq with out := d.irq.out.filter fun o => o.src != id } }

/-- A source ID in SERVICE at a target. -/
def Dev.inService (d : Dev) (t id : Nat) : Bool :=
  decide (id < 0x140) && (d.src (srcOfId t id)).service && (d.src (srcOfId t id)).by_ == t

/-- IRQ_DONE: a write of an ID to a done register. -/
def doIrqDone (t : Fin 18) (id : BitVec 10) (m : IrqMaster) (d : Dev) : Dev :=
  if m = .own ∧ d.inService t.val id.toNat then
    let d := d.completeSrc (srcOfId t.val id.toNat)
    if t = 17 then d.dropOut id.toNat else d
  else d.bump Base.irq F.IRQ_DONE_STRAY_COUNT

/-! ### Software sources of target 17 (R401) -/

/-- Private sources 32k + j of target 17 whose bit is set. -/
def swSources (k : Nat) (mask : Word) : List Nat :=
  ((List.range 32).filter fun j => mask.getLsbD j).map fun j => priv 17 (32 * k + j)

def doNtfSwSet (k : Fin 2) (mask : Word) (d : Dev) : Dev :=
  (swSources k.val mask).foldl (fun d s => d.raise s) d

def doNtfSwClr (k : Fin 2) (mask : Word) (d : Dev) : Dev :=
  (swSources k.val mask).foldl (fun d s => d.setSrc s { d.src s with event := false }) d

/-! ### Completion by the host and by the engine (R404, R405) -/

/-- NOTIFY_DONE. -/
def doNotifyDone (cid : Nat) (d : Dev) : Dev :=
  d.mgmt cid Op.notifyDone fun c _ =>
    let id := fieldBe c.payload 0 2
    if d.inService 17 id then ((d.completeSrc (srcOfId 17 id)).dropOut id).answer cid St.ok []
    else d.answer cid St.malformed []

/-- NOTIFY_TIMEOUT: no NOTIFY_DONE within DONE_S; a frozen engine or one under reset completes nothing (R380). -/
def doNotifyTimeout (src : Nat) (d : Dev) : Dev :=
  if !d.targetRuns 17 || !(d.irq.out.any fun o => o.src == src) then d
  else ((d.completeSrc (srcOfId 17 src)).dropOut src).bump Base.irq F.IRQ_NTF_TIMEOUT_COUNT

end Sys2Proof.Machine
end

