-- ==== Sys2Proof/Machine/Update.lean ====
section
/-!
DEFINITION. Settings images, firmware images, the Aethem link, attestation and ownership (chapter 15).
-/
namespace Sys2Proof.Machine

/-! ### REASON codes (Table 4-18) -/

def reasonStatus (r : Nat) : Nat :=
  if r = 0 then St.ok
  else if r = 1 ∨ r = 5 then St.permission
  else if r = 2 ∨ r = 3 then St.versionMismatch
  else if r = 4 then St.tooLarge
  else if r = 6 then St.rangeInvalid
  else St.busy

/-- The stepping of this controller (R564). -/
def stepping : Nat := 0xB0

/-- FW_VERSION as STATUS and ATTEST give it: stepping, major, minor, patch. -/
def Boot.verBytes (b : Boot) : List Byte := be 1 stepping ++ be 3 b.runVer

/-- STATUS.SERIAL. -/
def Boot.serial (b : Boot) : List Byte := padTo 24 (b.identity.take 24)

/-! ### Settings images (R549, R550, Table 15-8) -/

/-- Pieces of n bytes, a shorter rest dropped. -/
def entriesOf (n : Nat) (l : List Byte) : List (List Byte) := (chunks n (l.length + 1) l).filter fun e => e.length == n

def word32 (l : List Byte) (off : Nat) : Word := BitVec.ofNat 32 (fieldBe l off 4)

/-- PROFILE of each trust anchor, in order. -/
def anchorsOf : Nat → List Byte → List Nat
  | 0, _ => []
  | k + 1, l =>
    if l.length < 4 then []
    else fieldBe l 0 1 :: anchorsOf k (l.drop (4 + ceilDiv (fieldBe l 2 2) 4 * 4))

/-- Runs of pattern words into a bank. -/
def patternRuns : Nat → List Byte → Tbl Word → Tbl Word
  | 0, _, t => t
  | k + 1, l, t =>
    if l.length < 8 then t
    else
      let w := fieldBe l 0 4
      let n := fieldBe l 4 4
      let ws := (entriesOf 4 ((l.drop 8).take (4 * n))).map fun e => word32 e 0
      let t := (ws.zip (List.range ws.length)).foldl (fun t e =>
        if w + e.2 ≤ 0x22553F then putD (w + e.2) 0 e.1 t else t) t
      patternRuns k (l.drop (8 + 4 * n)) t

def spaceOf (e : List Byte) : SpaceDef where
  pairing := fieldBe e 1 1
  set_ := if fieldBe e 2 1 = 0xFF then none else some (fieldBe e 2 1)
  qprio := fieldBe e 3 1
  keyId := word32 e 4
  retainS := fieldBe e 8 4
  mirror := fieldBe e 12 1 != 0

/-- One section taken into an image; none for an unknown type. -/
def Settings.section (x : Settings) (type : Nat) (body : List Byte) : Option Settings :=
  if type = 1 then
    some { x with regs := x.regs ++ (entriesOf 8 body).map fun e => (fieldBe e 0 4, word32 e 4) }
  else if type = 2 then
    some { x with spaces := (entriesOf 16 body).foldl (fun t e => put (fieldBe e 0 1) (spaceOf e) t) x.spaces }
  else if type = 3 then
    some { x with profiles := (entriesOf 36 body).foldl (fun t e =>
      put (fieldBe e 0 1) { mask := fieldBe e 2 2 % 512, map := BitVec.ofNat 256 (fieldBe e 4 32) } t) x.profiles }
  else if type = 4 then some { x with anchors := x.anchors ++ anchorsOf body.length body }
  else if type = 5 then
    let es := (entriesOf 2 body).take 256
    some { x with placement := ((es.zip (List.range es.length)).filter fun e =>
        decide (fieldBe e.1 0 1 < 16 ∧ fieldBe e.1 1 1 < 16)).map fun e =>
      (e.2, (finSw (fieldBe e.1 0 1), finSw (fieldBe e.1 1 1))) }
  else if type = 6 then
    some { x with tcam := (entriesOf 92 body).foldl (fun t e =>
      put (fieldBe e 0 2 % 4096) ((entriesOf 4 (e.drop 4)).map fun w => word32 w 0) t) x.tcam }
  else if type = 7 then some { x with pattern := patternRuns body.length body x.pattern }
  else if type = 8 then some { x with release_ := true }
  else none

/-- The sections of an image; none where one is unknown or overruns. -/
def Settings.sections (x : Settings) : Nat → List Byte → Option Settings
  | 0, _ => some x
  | k + 1, l =>
    let n := fieldBe l 4 4
    if l.length < 8 ∨ l.length < 8 + n then none
    else
      match x.section (fieldBe l 0 2) ((l.drop 8).take n) with
      | none => none
      | some x => x.sections k (l.drop (8 + ceilDiv n 4 * 4))

/-- A settings image cut into its parts. -/
def parseSettings (l : List Byte) : Option Settings :=
  if l.length < 160 ∨ fieldBe l 0 4 ≠ 0x53484753 ∨ fieldBe l 16 4 ≠ l.length then none
  else
    let cert := fieldBe l 22 2
    let x := { Settings.reset with
      format := fieldBe l 4 2, signer := fieldBe l 6 2, series := fieldBe l 8 8, serial := slice l 24 24, bytes := l }
    x.sections (fieldBe l 20 2) (slice l (64 + cert) (l.length - 160 - cert))

/-- The settings slot not in use. -/
def Boot.idleSet (b : Boot) : Bool := !b.setSlotB

/-- The checks of R551 after the first; 0 when all pass. -/
def Dev.settingsReason (d : Dev) (x : Settings) (sigOk : Bool) : Nat :=
  let b := d.boot
  let want := if b.owner.isSome then 2 else 1
  if !sigOk ∨ x.signer ≠ want then 1
  else if (x.serial.any (· != 0) && x.serial != b.serial) ∨
      bitsOf (b.formatsOf b.fwSlotB) 16 16 < x.format then 2
  else if x.series ≤ b.set_.series then 3
  else if b.setA = .trial ∨ b.setB = .trial then 7
  else 0

/-- SETTINGS_WRITE. -/
def doSettingsWrite (cid : Nat) (sigOk : Bool) (d : Dev) : Dev :=
  d.mgmt cid Op.settingsWrite fun c _ =>
    match parseSettings c.payload with
    | none => d.answer cid St.malformed (zeros 4)
    | some x =>
      let r := d.settingsReason x sigOk
      if r ≠ 0 then d.answer cid (reasonStatus r) (be 1 r ++ zeros 3)
      else
        let s := d.boot.idleSet
        let b := d.boot.putSet s .pending
        let b := if b.setOf (!s) = .active then b.putSet (!s) .fallback else b
        let b := if s then { b with imgB := some x } else { b with imgA := some x }
        ({ d with boot := b }).answer cid St.ok (zeros 4)

/-! ### Firmware headers (R523, R526) -/

def fwHdrOf (h : List Byte) : FwHdr where
  bytes := h
  secVer := fieldBe h 18 1
  fwVer := fieldBe h 20 4
  len := fieldBe h 24 4
  formats := word32 h 28
  minFrom := fieldBe h 32 4

/-- ASCII "SHG-256Q". -/
def partName : List Byte := [0x53, 0x48, 0x47, 0x2D, 0x32, 0x35, 0x36, 0x51]

/-- Items 1 and 2 of R526, the cryptographic ones by their outcome. -/
def hdrForm (h : List Byte) (sigOk : Bool) : Bool :=
  h.length == 512 && fieldBe h 0 4 == 0x53484749 && fieldBe h 4 2 == 1 && fieldBe h 6 2 == 1 &&
    fieldBe h 19 1 == 0 && fieldBe h 36 4 == 0 && (slice h 160 256).all (· == 0) &&
    decide (fieldBe h 156 4 ≤ 3) && sigOk

def hdrPart (h : List Byte) (unwrapOk : Bool) : Bool :=
  slice h 8 8 == partName && decide (fieldBe h 16 1 ≤ stepping ∧ stepping ≤ fieldBe h 17 1) && unwrapOk

/-- The REASON of a header; 0 when it passes. -/
def Dev.hdrReason (d : Dev) (h : List Byte) (v : HdrVerdict) : Nat :=
  let x := fwHdrOf h
  let idle := d.boot.fw (!d.boot.fwSlotB)
  if !hdrForm h v.sigOk then 1
  else if !hdrPart h v.unwrapOk then 2
  else if x.secVer < d.boot.secCount then 3
  else if x.len < 1 ∨ 28311040 < x.len then 4
  else if d.boot.xfer.isSome ∨ idle = .pending ∨ idle = .fallback then 7
  else 0

/-! ### Sending on the chain (R532, R534, R536) -/

/-- XFER: bytes 0 to 3 of the header's SHA-384. -/
def xferOf (h : List Byte) : Word := BitVec.ofNat 32 (ofBe ((sha384 h).take 4))

/-- The drive heads its chain: no neighbour upstream. -/
def Dev.isHead (d : Dev) : Bool := !d.io.upHere

/-- A frame goes out, where the chain is enabled and a neighbour stands there. -/
def Dev.chainSend (d : Dev) (down : Bool) (type hop offset : Nat) (xfer : Word) (payload : List Byte) : Dev :=
  let here := if down then d.io.dnHere else d.io.upHere
  if !here || !d.chainOn then d
  else
    let f : ChainFrame := { hop := hop, offset := offset, xfer := xfer, payload := payload, crcOk := true }
    let copies := if type = 2 ∨ type = 5 ∨ type = 7 then 1 else 3
    let o : ChainOut := { down := down, type := type, frame := f, copies := copies }
    { d with boot := { d.boot with chainOut := d.boot.chainOut ++ [o] } }

/-- Forward a frame with HOP raised by 1. -/
def Dev.chainPass (d : Dev) (down : Bool) (type : Nat) (f : ChainFrame) : Dev :=
  d.chainSend down type (f.hop + 1) f.offset f.xfer f.payload

def Dev.relays (d : Dev) : Bool := d.flag Base.glb F.GLB_UPD_CTRL_RELAY

/-- Data of a payload from an offset, in IMG_DATA frames. -/
def Dev.sendData (d : Dev) (hop offset : Nat) (xfer : Word) (data : List Byte) : Dev :=
  let ps := chunks 1024 (data.length + 1) data
  ((ps.zip (List.range ps.length)).filter fun e => !e.1.isEmpty).foldl
    (fun d e => d.chainSend true 2 hop (offset + 1024 * e.2) xfer e.1) d

/-- REFUSE goes upstream (R527, R540). -/
def Dev.sendRefuse (d : Dev) (hop reason : Nat) (xfer : Word) : Dev :=
  d.chainSend false 4 1 0 xfer (be 1 hop ++ be 1 reason ++ zeros 2 ++ d.boot.serial)

/-- A good frame of types 1, 3, 4 and 6 that has not been acted on in the last 4 ticks; its copies come
1 ms apart. -/
def Dev.takeFrame (d : Dev) (type : Nat) (f : ChainFrame) : Option Dev :=
  let old := d.boot.chainSeen.filter fun e => decide (d.now < e.2.2 + 4)
  if !f.crcOk || !d.chainOn || old.any (fun e => e.1 == type && e.2.1 == f) then none
  else some { d with boot := { d.boot with chainSeen := old ++ [(type, f, d.now)] } }

/-! ### A transfer (R527 to R531) -/

def Dev.setXferStat (d : Dev) (v : Nat) : Dev := d.setFld Base.glb F.GLB_UPD_STAT_XFER v

/-- The JOB 5 record (R530). -/
def Dev.imgJob (d : Dev) (st result permille : Nat) : Dev :=
  let old := (d.job 5 0).getD
    { st := 0, result := 0, permille := 0, elapsed := 0, arg := 0, act := 0 }
  d.setJob 5 0 { old with st := st, result := result, permille := permille,
                          elapsed := if old.st = 1 then old.elapsed else 0 }

/-- An image is refused: the record, source 0xB1 and the REASON (R527). -/
def Dev.refuseImage (d : Dev) (reason : Nat) : Dev :=
  let d := d.setFld Base.glb F.GLB_UPD_STAT_REASON reason
  (d.report 0x0B02 Unit.steward 2 reason 0xFF).raise (shared 0xB1)

/-- A firmware slot is emptied. -/
def Boot.emptyFw (b : Boot) (slotB : Bool) : Boot :=
  if slotB then { b with fwB := .empty, hdrB := none, payB := [], idB := 0 }
  else { b with fwA := .empty, hdrA := none, payA := [], idA := 0 }

/-- A header that passes takes the staging area (R528). -/
def Dev.beginImage (d : Dev) (h : List Byte) (id : Word) (chain : Bool) (hop : Nat) : Dev :=
  let x : Transfer := { hdr := fwHdrOf h, id := id, got := 0, data := [], chain := chain, storing := false,
                        xfer := xferOf h, hop := hop, gap := false }
  let d := { d with boot := { d.boot.emptyFw (!d.boot.fwSlotB) with xfer := some x } }
  let d := (d.setXferStat 1).setFld Base.glb F.GLB_UPD_STAT_FROM_CHAIN (b2n chain)
  let d := (d.setFld Base.glb F.GLB_UPD_BYTES_COUNT 0).imgJob 1 0 0
  if d.relays then d.chainSend true 1 (hop + 1) 0 (xferOf h) h else d

/-- A transfer that fails: the staging area is free, the slot stays EMPTY. -/
def Dev.failImage (d : Dev) (reason : Nat) : Dev :=
  let d := ({ d with boot := { d.boot with xfer := none } }).setXferStat 5
  (d.imgJob 3 (reasonStatus reason) (((d.job 5 0).map (·.permille)).getD 0)).refuseImage reason

/-- Bytes of the payload enter the staging area; with the last, the digest decides (R529, R530). Answers
the transfer's REASON. -/
def Dev.appendImage (d : Dev) (t : Transfer) (data : List Byte) (digestOk : Bool) : Dev × Nat :=
  let got := t.got + data.length
  let t' := { t with got := got, data := t.data ++ data, gap := false }
  let d := ({ d with boot := { d.boot with xfer := some t' } }).setFld Base.glb F.GLB_UPD_BYTES_COUNT got
  let d := d.imgJob 1 0 (got * 1000 / t.hdr.len)
  if got < t.hdr.len then (d, 0)
  else if digestOk then
    (({ d with boot := { d.boot with xfer := some { t' with storing := true } } }).setXferStat 3, 0)
  else (d.failImage 5, 5)

/-- IMAGE_BEGIN. The ID drawn is new: not 0, and not that of a stored image. -/
def doImageBegin (cid : Nat) (v : HdrVerdict) (imageId : BitVec 32) (d : Dev) : Dev :=
  d.mgmt cid Op.imageBegin fun c _ =>
    if imageId = 0 ∨ imageId.toNat = d.boot.idA ∨ imageId.toNat = d.boot.idB then d
    else
      let h := c.payload
      let r := d.hdrReason h v
      if r ≠ 0 then (d.refuseImage r).answer cid (reasonStatus r) (zeros 4 ++ be 1 r ++ zeros 3)
      else (d.beginImage h imageId false 0).answer cid St.ok (be 4 imageId.toNat ++ zeros 4)

/-- IMAGE_DATA. -/
def doImageData (cid : Nat) (digestOk : Bool) (d : Dev) : Dev :=
  d.mgmt cid Op.imageData fun c _ =>
    let id := word32 c.payload 0
    let off := fieldBe c.payload 4 4
    let data := c.payload.drop 8
    match d.boot.xfer with
    | none => d.answer cid St.malformed []
    | some t =>
      let reply (d : Dev) (r got : Nat) : Dev := d.answer cid (reasonStatus r) (be 4 got ++ be 1 r ++ zeros 3)
      if t.id ≠ id ∨ t.chain ∨ t.storing then d.answer cid St.malformed []
      else if off ≠ t.got then reply d 6 t.got
      else if t.hdr.len < t.got + data.length then reply d 4 t.got
      else
        let d := if d.relays then d.sendData 1 t.got t.xfer data else d
        let all := decide (t.got + data.length = t.hdr.len)
        let d := if d.relays && all then d.chainSend true 3 1 0 t.xfer [] else d
        let (d, r) := d.appendImage t data digestOk
        reply d r (t.got + data.length)

/-- IMAGE_STORE_COMPLETE: the slot has been programmed and checked. -/
def doImageStoreComplete (ok : Bool) (d : Dev) : Dev :=
  match d.boot.xfer with
  | none => d
  | some t =>
    if !t.storing then d
    else if !ok then d.failImage 5
    else
      let b := { d.boot with xfer := none }
      let s := !b.fwSlotB
      let b := b.setFw s .stored
      let b := if s then { b with hdrB := some t.hdr, payB := t.data, idB := t.id.toNat }
        else { b with hdrA := some t.hdr, payA := t.data, idA := t.id.toNat }
      let d := (({ d with boot := b }).setXferStat 4).imgJob 2 St.ok 1000
      (d.report 0x0B01 Unit.steward 1 t.hdr.len t.hdr.fwVer).raise (shared 0xB0)

/-- IMAGE_TRANSFER_TIMEOUT: no payload byte for 60 s. -/
def doImageTransferTimeout (d : Dev) : Dev :=
  match d.boot.xfer with
  | none => d
  | some t =>
    if t.storing then d
    else
      let d := ({ d with boot := { d.boot with xfer := none } }).setXferStat 0
      { d with adm := { d.adm with jobs := del (jobKey 5 0) d.adm.jobs } }

/-! ### Activation (R537 to R540) -/

/-- A STORED slot by a test of its header and IMAGE_ID. -/
def Boot.storedSlot (b : Boot) (p : FwHdr → Nat → Bool) : Option Bool :=
  let is (s : Bool) : Bool := b.fw s == .stored &&
    ((b.hdr s).map fun h => p h (if s then b.idB else b.idA)).getD false
  if is false then some false else if is true then some true else none

/-- The conditions of R537 on a STORED slot. -/
def Boot.activateStatus (b : Boot) (s : Bool) : Nat :=
  let minFrom := ((b.hdr s).map (·.minFrom)).getD 0
  if b.runVer < minFrom then St.versionMismatch else if b.inTrial then St.busy else St.ok

/-- The slot becomes PENDING and the running one FALLBACK; source 0xB2. -/
def Dev.makePending (d : Dev) (s : Bool) (when_ : Nat) : Dev :=
  let b := (d.boot.setFw d.boot.fwSlotB .fallback).setFw s .pending
  ({ d with boot := { b with whenAt := when_ } }).raise (shared 0xB2)

/-- IMAGE_ACTIVATE. -/
def doImageActivate (cid : Nat) (d : Dev) : Dev :=
  d.mgmt cid Op.imageActivate fun c _ =>
    let id := fieldBe c.payload 0 4
    let aflags := fieldBe c.payload 4 4
    let when_ := fieldBe c.payload 8 8
    if id = 0 then
      let back (x : SlotSt) : SlotSt := match x with
        | .pending => .stored
        | .fallback => .active
        | x => x
      let d := if (d.boot.fwIn .pending).isNone then d
        else { d with boot := { d.boot with fwA := back d.boot.fwA, fwB := back d.boot.fwB, whenAt := 0 } }
      d.answer cid St.ok []
    else
      match d.boot.storedSlot fun _ k => k == id with
      | none => d.answer cid St.malformed []
      | some s =>
        let st := d.boot.activateStatus s
        if st ≠ St.ok then d.answer cid st []
        else
          let h := ((d.boot.hdr s).map (·.bytes)).getD []
          let d := d.makePending s when_
          let d := if bit aflags 0 then
              d.chainSend true 6 1 0 (xferOf h) (sha384 h ++ be 8 when_ ++ be 4 aflags ++
                be 2 (d.fld Base.glb F.GLB_UPD_CTRL_STAGGER_S) ++ zeros 2)
            else d
          d.answer cid St.ok []

/-- ACTIVATE from upstream: passed on, and acted on where the slot is held. -/
def doActivate (f : ChainFrame) (d : Dev) : Dev :=
  match d.takeFrame 6 f with
  | none => d
  | some d =>
    let d := d.chainPass true 6 f
    let w := fieldBe f.payload 48 8
    let when_ := if w = 0 then 0 else w + f.hop * fieldBe f.payload 60 2 * tickHz
    let refuse := d.sendRefuse f.hop 7 f.xfer
    if !d.flag Base.glb F.GLB_UPD_CTRL_ACCEPT_CHAIN then refuse
    else
      match d.boot.storedSlot fun h _ => sha384 h.bytes == slice f.payload 0 48 with
      | none => refuse
      | some s => if d.boot.activateStatus s = St.ok then d.makePending s when_ else refuse

/-! ### Images over the chain (R525, R533 to R535) -/

/-- IMG_HDR from upstream. -/
def doImgHdr (f : ChainFrame) (v : HdrVerdict) (d : Dev) : Dev :=
  match d.takeFrame 1 f with
  | none => d
  | some d =>
    if !d.flag Base.glb F.GLB_UPD_CTRL_ACCEPT_CHAIN then d
    else
      let r := d.hdrReason f.payload v
      if r ≠ 0 then (d.refuseImage r).sendRefuse f.hop r f.xfer
      else d.beginImage f.payload 0 true f.hop

/-- RESEND goes upstream for the first byte wanted. -/
def Dev.askResend (d : Dev) (t : Transfer) : Dev :=
  let d := { d with boot := { d.boot with xfer := some { t with gap := true } } }
  d.chainSend false 5 1 t.got t.xfer []

/-- IMG_DATA from upstream. -/
def doImgData (f : ChainFrame) (digestOk : Bool) (d : Dev) : Dev :=
  match d.boot.xfer with
  | none => d
  | some t =>
    if !t.chain || t.storing || !d.chainOn then d
    else if !f.crcOk then d.askResend t
    else if f.xfer ≠ t.xfer then d
    else if t.got < f.offset then (if t.gap then d else d.askResend t)
    else if f.offset < t.got ∨ t.hdr.len < t.got + f.payload.length ∨ f.payload.isEmpty then d
    else
      let d := if d.relays then d.chainPass true 2 f else d
      (d.appendImage t f.payload digestOk).1

/-- IMG_END from upstream: bytes still missing are asked for. -/
def doImgEnd (f : ChainFrame) (d : Dev) : Dev :=
  match d.takeFrame 3 f with
  | none => d
  | some d =>
    match d.boot.xfer with
    | none => d
    | some t =>
      if !t.chain || t.xfer != f.xfer then d
      else
        let d := if d.relays then d.chainPass true 3 f else d
        if t.storing then d else d.askResend t

/-- The image of an XFER entered the chain at this drive. -/
def Boot.entered (b : Boot) (xfer : Word) : Bool :=
  (b.xfer.map fun t => !t.chain && t.xfer == xfer).getD false ||
    [false, true].any fun s => (if s then b.idB else b.idA) != 0 &&
      ((b.hdr s).map fun h => xferOf h.bytes == xfer).getD false

/-- REFUSE from downstream: passed on upstream, or latched where the image entered. -/
def doRefuse (f : ChainFrame) (d : Dev) : Dev :=
  match d.takeFrame 4 f with
  | none => d
  | some d =>
    if !d.boot.entered f.xfer then d.chainPass false 4 f
    else
      let hop := fieldBe f.payload 0 1
      let reason := fieldBe f.payload 1 1
      let b := Base.glb
      let d := if d.flag b F.GLB_UPD_REFUSE_VALID then d
        else ((d.setFld b F.GLB_UPD_REFUSE_HOP hop).setFld b F.GLB_UPD_REFUSE_REASON reason).setFld b
          F.GLB_UPD_REFUSE_VALID 1
      (d.report 0x0B02 Unit.steward 2 reason hop).raise (shared 0xB1)

/-- RESEND from downstream: the staging area from OFFSET onward. -/
def doResend (f : ChainFrame) (d : Dev) : Dev :=
  match d.boot.xfer with
  | none => d
  | some t =>
    if !f.crcOk || f.xfer != t.xfer || !d.relays then d
    else d.sendData (t.hop + 1) f.offset t.xfer (t.data.drop f.offset)

/-! ### Inventory (R536, Table 15-6) -/

/-- The drive's own position. -/
def Dev.chainPos (d : Dev) : Nat := if d.isHead then 0 else d.fld Base.glb F.GLB_CHAIN_POS_POS

/-- FAULT_N is low: a cause of R473 or FAULT_SET. -/
def Dev.faultLow (d : Dev) : Bool :=
  d.io.faultN || d.fld Base.pwr F.PWR_HOLD_HEALTH == 3 || d.pw.stopped || d.flag Base.glb F.GLB_OUT_FAULT_SET

/-- The drive's own entry. -/
def Dev.ownEntry (d : Dev) : List Byte :=
  let b := d.boot
  let sflags := b2n (d.flag Base.glb F.GLB_START_STAT_READY) + 2 * b2n b.inTrial + 4 * b2n d.faultLow +
    8 * b2n b.owner.isSome
  b.serial ++ b.verBytes ++ be 1 d.envelope ++ be 1 b.secCount ++ be 1 sflags ++ zeros 1

/-- INVENTORY: the beacon from upstream, or an entry from downstream. -/
def doInventory (f : ChainFrame) (down : Bool) (d : Dev) : Dev :=
  if !f.crcOk || !d.chainOn then d
  else if down then
    let d := (d.setFld Base.glb F.GLB_CHAIN_POS_POS f.hop).setFld Base.glb F.GLB_CHAIN_POS_VALID 1
    d.chainPass true 7 f
  else
    let e : InvEnt := { bytes := f.payload, stale := false }
    let d := { d with boot := { d.boot with inv := put (d.chainPos + f.hop) e d.boot.inv } }
    d.chainPass false 7 f

/-- INVENTORY_BEACON_TIMER: the head's beacon, and each drive's own entry. -/
def doInventoryBeaconTimer (d : Dev) : Dev :=
  if d.isHead then d.chainSend true 7 1 0 0 [] else d.chainSend false 7 1 0 0 d.ownEntry

/-- INVENTORY_STALE: an entry has not been refreshed for 5 s. -/
def doInventoryStale (pos : Nat) (d : Dev) : Dev :=
  { d with boot := { d.boot with inv := adjust pos (fun e => { e with stale := true }) d.boot.inv } }

/-! ### Identity and ownership (R560, R561, Table 4-19) -/

/-- FW_DIGEST: the running slot's header and encrypted payload. -/
def Boot.fwDigest (b : Boot) : List Byte :=
  sha384 (((b.hdr b.fwSlotB).map (·.bytes)).getD [] ++ (if b.fwSlotB then b.payB else b.payA))

/-- SETTINGS_DIGEST; 48 bytes of 0 where reset values apply. -/
def Boot.setDigest (b : Boot) : List Byte := if b.set_.bytes.isEmpty then zeros 48 else sha384 b.set_.bytes

/-- Bytes 0 to 191 of the ATTEST response. -/
def Dev.attestBody (d : Dev) (nonce : List Byte) : List Byte :=
  let b := d.boot
  let own := match b.owner with
    | some k => sha384 k
    | none => zeros 48
  nonce ++ b.verBytes ++ be 1 b.secCount ++ be 1 (b2n b.fwSlotB) ++ zeros 2 ++ b.fwDigest ++ b.setDigest ++ own ++
    be 8 d.stamp

/-- ATTEST; `sig` is the identity key's signature. -/
def doAttest (cid : Nat) (sig : List Byte) (d : Dev) : Dev :=
  d.mgmt cid Op.attest fun c _ =>
    d.answer cid St.ok (d.attestBody (slice c.payload 0 32) ++ padTo 96 (sig.take 96))

/-- TAKE_OWNERSHIP (R172). -/
def doTakeOwnership (cid : Nat) (proofOk : Bool) (d : Dev) : Dev :=
  d.mgmt cid Op.takeOwnership fun c _ =>
    if d.boot.owner.isSome || !proofOk then d.answer cid St.permission []
    else
      let d := { d with boot := { d.boot with
        owner := some (slice c.payload 0 97), enrolSeries := d.boot.set_.series } }
      d.answer cid St.ok []

end Sys2Proof.Machine
end

