-- ==== Sys2Proof/Machine/Admin.lean ====
section
/-!
DEFINITION. Administration (chapter 16): the jobs SANITIZE, FORMAT, EVACUATE and SWATH_TEST, PROGRESS and
STATUS.
-/
namespace Sys2Proof.Machine

/-! ### Which jobs run (R568, Table 16-1) -/

/-- A job of a kind runs or waits to resume. -/
def Dev.jobRuns (d : Dev) (job : Nat) : Bool :=
  d.adm.jobs.any fun e => e.1 / 256 == job && (e.2.st == 1 || e.2.st == 4)

/-- A job of a kind and target runs or waits to resume. -/
def Dev.jobOn (d : Dev) (job target : Nat) : Bool :=
  ((d.job job target).map fun j => j.st == 1 || j.st == 4).getD false

/-- A SANITIZE or FORMAT command waits for the data commands admitted before it. -/
def Dev.erasePends (d : Dev) (op : Nat) : Bool := d.disp.cmds.any fun e => e.2.st == .running && e.2.op == op

def Dev.sanitizing (d : Dev) : Bool := d.jobRuns 1 || d.erasePends Op.sanitize

def Dev.formatting (d : Dev) : Bool := d.jobRuns 2 || d.jobRuns 7 || d.erasePends Op.format

/-- A FORMAT whose scope shares a key space with a new one. -/
def Dev.formatShares (d : Dev) (all : Bool) (space : Nat) : Bool :=
  d.jobRuns 7 || (all && d.formatting) || d.jobOn 2 space ||
    d.disp.cmds.any fun e => e.2.st == .running && e.2.op == Op.format &&
      (fieldBe e.2.payload 0 1 == 1 || e.2.space == space)

/-- The record of a job that begins. -/
def freshJob (arg act : Nat) : Job := { st := 1, result := 0, permille := 0, elapsed := 0, arg := arg, act := act }

/-! ### SWATH_TEST (R169, R579 to R583) -/

def doSwathTest (cid : Nat) (d : Dev) : Dev :=
  d.mgmt cid Op.swathTest fun c _ =>
    let sw := fieldBe c.payload 0 1
    let test := fieldBe c.payload 1 1
    let passes := fieldBe c.payload 4 4
    let n := finSw sw
    let b := Base.sw n
    if 15 < sw ∨ test = 0 ∨ 3 < test ∨ passes = 0 ∨ 65535 < passes ∨ fieldBe c.payload 2 2 ≠ 0 then
      d.answer cid St.malformed []
    else if (test ≤ 2 ∧ d.ownsSlots n) ∨ d.sanitizing ∨ d.jobOn 4 sw ∨ d.resetting (.swath n) then
      d.answer cid St.busy []
    else if (if test = 3 then !d.online n else d.swFrozen n || (d.sw n).failed) then
      d.answer cid St.swathOffline []
    else
      let d := d.setJob 4 sw (freshJob passes test)
      let d := ((d.setFld b F.SW_TST_STAT_TEST test).setFld b F.SW_TST_STAT_PASS 0).setFld b F.SW_TST_STAT_FAULTS 0
      let d := if test ≤ 2 ∧ (d.sw n).ready then ((d.updSw n Swath.closePack).drainNow n).startPass n else d
      let d := if test = 1 then d.checkerRun n else d
      (d.setFld b F.SW_TST_STAT_ACTIVE 1).answer cid St.ok []

/-- The first fault of a test is latched. -/
def Dev.latchFault (d : Dev) (n : Fin 16) (addr dev kind : Nat) : Dev :=
  let b := Base.sw n
  if d.flag b F.SW_TST_FAULT_INFO_VALID then d
  else
    let d := (d.setFld b F.SW_TST_FAULT_ADDR addr).setFld b F.SW_TST_FAULT_INFO_DEV dev
    (d.setFld b F.SW_TST_FAULT_INFO_KIND kind).setFld b F.SW_TST_FAULT_INFO_VALID 1

/-- What a march does about a fault it found: the failing page is retired, and the position is marked when
it fails in at least MARK_THR granules (R581). The end of a test names its first fault alone. -/
def Dev.marchFault (d : Dev) (n : Fin 16) (faults addr dev : Nat) : Dev :=
  let b := Base.sw n
  let d := d.retirePage n (addr % 2 ^ 28 / 32)
  if dev < 10 ∧ d.flag b F.SW_MEM_CTRL_MARK_EN ∧ (d.marked n).isNone ∧ d.fld b F.SW_MEM_CTRL_MARK_THR ≤ faults then
    d.markDev n dev
  else d

/-- SWATH_TEST_END: every pass has run. BIST and march end with a reset of the swath; after a failed one
it stays offline. -/
def doSwathTestEnd (n : Fin 16) (faults : Nat) (addr : BitVec 32) (dev kind : BitVec 4) (d : Dev) : Dev :=
  let b := Base.sw n
  match d.job 4 n.val with
  | none => d
  | some j =>
    if j.st ≠ 1 ∨ !d.flag b F.SW_TST_STAT_ACTIVE then d
    else
      let bad := decide (0 < faults)
      let d := (d.setFld b F.SW_TST_STAT_PASS j.arg).setFld b F.SW_TST_STAT_FAULTS (min 8191 faults)
      let d := if bad then d.latchFault n addr.toNat dev.toNat kind.toNat else d
      let d := if bad ∧ j.act = 2 then d.marchFault n faults addr.toNat dev.toNat else d
      let d := (d.setFld b F.SW_TST_STAT_ACTIVE 0).endJob 4 n.val (!bad) (if bad then St.mediaLost else St.ok)
      if j.act = 3 then d
      else (d.updSw n fun s => { s with leftOff := s.leftOff || bad }).stewardReset n 3

/-! ### EVACUATE -/

def doEvacuate (cid : Nat) (d : Dev) : Dev :=
  d.mgmt cid Op.evacuate fun c _ =>
    let sw := fieldBe c.payload 0 1
    let act := fieldBe c.payload 1 1
    if 15 < sw ∨ act = 0 ∨ 2 < act then d.answer cid St.malformed []
    else if d.sanitizing || d.formatting || d.jobRuns 3 then d.answer cid St.busy []
    else
      let d := d.setJob 3 sw (freshJob (fieldBe c.payload 2 2) act)
      let d := { d with adm := { d.adm with slot := none, foster := none, copies := 0, moved := 0 } }
      let b := Base.dsp
      let d := (d.setFld b F.DSP_EVQ_STAT_SWATH sw).setFld b F.DSP_EVQ_STAT_DONE 0
      (d.setFld b F.DSP_EVQ_STAT_ACTIVE 1).takeSlot.answer cid St.ok []

/-! ### What SANITIZE and FORMAT wait for and refuse (R170, R171) -/

/-- A data command in scope is still at work or has its last response unsent. -/
def Dev.eraseWaits (d : Dev) (inScope : Nat → Bool) : Bool :=
  (d.disp.cmds.any fun e => isData e.2.op && inScope e.2.space && e.2.hasTag) ||
    d.ses.ctx.any fun e => e.2.out.any fun f => isData f.op && inScope f.space && f.last && f.sent == 0

/-- The refusal of a job that keys held or retained stand against (R140, R170). A key whose record has failed is judged
by its stamp and flag like any other (DESIGN CHOICE, log entry 101: R335 names no job). -/
def Dev.eraseRefusal (d : Dev) (inScope : Nat → Bool) : Option Nat :=
  let ks := allSwaths.flatMap fun n => (d.sw n).keys.filter fun k => inScope k.space
  if ks.any (·.held) then some St.retained
  else if !d.trusted && ks.any (fun k => k.retain != 0) then some St.timeUntrusted
  else if ks.any fun k => decide (d.stamp < k.retain) then some St.retained
  else none

/-- The tests of Table 4-16's fields; `flags` beyond OVERRIDE are reserved. -/
def Dev.eraseCheck (d : Dev) (x : Ctx) (confirmOk : Bool) (flags : Nat) (busy : Bool) (inScope : Nat → Bool) :
    Option Nat :=
  if !confirmOk ∨ 1 < flags then some St.malformed
  else if flags = 1 ∧ !d.hasPerm x 8 then some St.permission
  else if busy then some St.busy
  else if flags = 1 then none
  else d.eraseRefusal inScope

/-! ### SANITIZE (R337, R570 to R575) -/

/-- A swath that takes no part (R575). -/
def Dev.skipsSanitize (d : Dev) (n : Fin 16) : Bool :=
  (d.sw n).failed || (d.swFrozen n && d.fld Base.glb F.GLB_FRZ_CTRL_AUTO_S == 0)

/-- A new key under a new KEK salt or for a formatted key space. -/
def drawKey (draws : List (Nat × BitVec 256)) (space : Nat) : BitVec 256 :=
  ((draws.find? fun e => e.1 == space).map (·.2)).getD 0

/-- What a swath holds once its index, DRAM and journal memory have been cleared (step 3). -/
def Swath.cleared (s : Swath) : Swath :=
  { s with
    keys := [], tombs := [], links := [], haz := [], units := [], ring := [], dirty := [],
    pass := none, ckpt := [], rebuild := [], passReq := false, map := [], pack := [], packOpen := none,
    discards := [], unready := [], vc := [], dram := [], holdRing := [], flushed := [], hiMark := none }

/-- Step 3 for a swath that takes part, with step 4 before it; the keys of one that does not can no longer be opened. -/
def Dev.clearSwath (d : Dev) (n : Fin 16) : Dev :=
  if d.skipsSanitize n then d.updSw n fun s => { s with keys := s.keys.map fun k => { k with recBad := true } }
  else d.updSw n fun s => { s.cleared with wipe := some (wipedTo 0) }

/-- The cipher key slots of every swath that runs are loaded again (R336). -/
def Dev.reloadSlots (d : Dev) : Dev :=
  allSwaths.foldl (fun d n =>
    if d.resetting (.swath n) then d else d.updSw n fun s => { s with slotsIn := d.keySlots }) d

/-- Steps 1 to 3 of Table 16-2. -/
def Dev.beginSanitize (d : Dev) (cid : Nat) (draw : EraseDraw) : Dev :=
  let keys : Tbl DataKey := d.boot.keys.map fun e =>
    (e.1, e.2.rewritten draw.kekSalt (drawKey draw.keys e.1) 1)
  let d := { d with boot := { d.boot with saltA := draw.kekSalt, saltB := draw.kekSalt, keys := keys, seenKeys := [] } }
  let d := d.fcEmpty
  let d := d.ses.ctx.foldl (fun d e => e.2.streams.foldl (fun d s => d.abandonStream e.1 s.space s.key) d) d
  let ctxs : Tbl Ctx := d.ses.ctx.map fun e => (e.1, { e.2 with out := e.2.out.filter fun f => f.about.isNone })
  let d := { d with ses := { d.ses with ctx := ctxs } }
  let d := d.updDisp fun x => { x with secret := draw.secret, defLog := [] }
  let d := (List.range 256).foldl (fun d s =>
    let x := d.slot s
    if x.owner = x.home ∧ x.st = 0 then d
    else d.setSlot s { x with owner := x.home, st := 0, copied := false, part := false, moved := [] }) d
  let d := (allSwaths.foldl (fun d n => d.clearSwath n) d).reloadSlots
  (d.setJob 1 0 { freshJob 0 0 with permille := 20 }).answer cid St.ok []

/-- SANITIZE: refusals, the wait for admitted commands, and the job's beginning. -/
def doSanitize (cid : Nat) (draw : EraseDraw) (d : Dev) : Dev :=
  let go (d : Dev) : Dev := if d.eraseWaits (fun _ => true) then d else d.beginSanitize cid draw
  match d.cmd cid with
  | none => d
  | some c =>
    if c.op = Op.sanitize ∧ c.st = .running then go d
    else d.mgmt cid Op.sanitize fun c x =>
      let busy := d.sanitizing || d.formatting || d.jobRuns 3 || d.jobRuns 4
      match d.eraseCheck x (fieldBe c.payload 0 4 == 0x53414E49) (fieldBe c.payload 4 4) busy (fun _ => true) with
      | some st => d.answer cid st []
      | none => go (d.updCmd cid fun y => { y with st := .running })

/-- The rows of step 4 in their order: the superblocks in service in ascending number, then the spare blocks with
the blocks of superblocks out of service (R573; DESIGN CHOICE for the latter's place, log entry 65). -/
def Swath.wipeOrder (s : Swath) : List Nat :=
  let out (i : Nat) : Bool := decide (2048 ≤ i) || (s.sb i).st == .retired
  (List.range 2112).filter (fun i => !out i) ++ (List.range 2112).filter out

/-- The row a die erases next. -/
def Swath.nextRow (s : Swath) (die : Fin 32) : Option Nat := s.wipe.bind fun t => s.wipeOrder[lookD die.val 0 t]?

/-- The block of a plane that a row erases: that of the superblock, or the next that no superblock in service has. -/
def Swath.wipeBlock (s : Swath) (i p : Nat) : Nat :=
  let inUse (j : Nat) : Bool := decide (j < 2048) && (s.sb j).st != .retired
  if inUse i then s.blockAt i p
  else
    let used := ((List.range 2048).filter inUse).map (s.blockAt · p)
    let rest := (List.range 2112).filter fun b => !used.contains b
    rest.getD ((s.wipeOrder.drop used.length).idxOf i) 0

/-- A die's erase of step 4 may end: the job runs, the row is the die's next, and its operation is in progress or
starts now with its tokens (R424, R573). -/
def Dev.wipeRuns (d : Dev) (n : Fin 16) (i : Nat) (die : Fin 32) : Option Dev :=
  if !d.swRuns n || (d.job 1 0).map (·.st) != some 1 || (d.sw n).nextRow die != some i then none
  else d.opRuns n die .erase (.mover .gleaning)

/-- A die has erased row i, and PERMILLE follows. -/
def Dev.rowErased (d : Dev) (n : Fin 16) (i : Nat) (die : Fin 32) (asks : List TokenAsk) : Dev :=
  (((d.bumpBy (Base.sw n) F.SW_MED_ERASE_COUNT 4).updSw n fun s =>
    { s with
      wipe := s.wipe.map (adjust die.val (· + 1)),
      pages := s.pages.filter fun e => !(ppaSb e.1 == i && e.1 / 4 % 32 == die.val) }).opEnded n die asks).showWipe

/-- ERASE_COMPLETE while SANITIZE erases the swath. -/
def doWipeComplete (n : Fin 16) (i : Nat) (die : Fin 32) (asks : List TokenAsk) (d : Dev) : Dev :=
  match d.wipeRuns n i die with
  | none => d
  | some d => d.rowErased n i die asks

/-- A block outside the superblocks in service enters the bad-block list and is no spare (R305). -/
def Dev.badSpare (d : Dev) (n : Fin 16) (p block : Nat) : Dev :=
  let d := d.updSw n fun s => { s with
    badBlks := s.badBlks ++ [(p, block)], spares := put p ((s.sparesIn p).filter (· != block)) s.spares }
  (d.bump (Base.sw n) F.SW_MED_RETIRED_COUNT).raise (privSw n 7)

/-- ERASE_FAIL while SANITIZE erases the swath: a listed block leaves the job running, any other is listed (R305,
R573). -/
def doWipeFail (n : Fin 16) (i : Nat) (die : Fin 32) (plane : Fin 4) (d : Dev) : Dev :=
  match d.wipeRuns n i die with
  | none => d
  | some d =>
    let s := d.sw n
    let p := die.val * 4 + plane.val
    let block := s.wipeBlock i p
    let d := d.bump (Base.sw n) F.SW_MED_ERASE_FAIL_COUNT
    let d :=
      if s.badBlks.contains (p, block) then d
      else if i < 2048 ∧ (s.sb i).st ≠ .retired then d.badBlock n i p
      else d.badSpare n p block
    d.rowErased n i die []

/-- Wear units of step 4's erase (R296); a superblock never used since its last erase adds none. -/
def Sb.wipeWear (x : Sb) : Nat := if x.st = .erased then 0 else if x.slc then 1 else 20

/-- A superblock re-formed as ERASED after step 4. -/
def Sb.wiped (x : Sb) : Sb :=
  if x.st = .retired then x
  else { Sb.blank with wear := x.wear + x.wipeWear, slc := x.slc, replaced := x.replaced }

/-- Failed blocks of every superblock are replaced, or the superblock is dissolved, before it is ERASED
again (R306). -/
def Dev.wipeFailed (d : Dev) (n : Fin 16) : Dev :=
  ((d.sw n).sbs.filter fun e => e.2.st != .retired && !e.2.failed.isEmpty).foldl (fun d e =>
    match (d.sw n).replaceAll e.1 e.2.failed with
    | none => d.dissolve n e.1
    | some s => d.setSw n s) d

/-- Step 5: every superblock has been erased once more, and the swath starts empty. -/
def Swath.reformed (s : Swath) : Swath :=
  { s.cleared with
    sbs := (List.range 2048).map fun i => (i, (s.sb i).wiped), slcOpen := none, hostOpen := none, gleanOpen := none,
    metaOpen := none, ted := none, glean := none, pages := [], mode := if s.fallow then 4 else 0, ops := [], waits := [],
    wipe := none }

/-- SANITIZE ends: in every swath that takes part the blocks left of step 4 are erased and step 5 is done. -/
def Dev.endSanitize (d : Dev) : Dev :=
  let skipped := allSwaths.any d.skipsSanitize
  let d := (allSwaths.filter fun n => !d.skipsSanitize n).foldl (fun d n =>
    let left := swathBlocks - (d.sw n).wipedBlocks
    (((d.wipeFailed n).updSw n Swath.reformed).bumpBy (Base.sw n) F.SW_MED_ERASE_COUNT left).recount n) d
  let d := { d with sws := d.sws.map fun (s : Swath) => { s with wipe := none } }
  d.endJob 1 0 (!skipped) (if skipped then St.swathOffline else St.ok)

/-! ### FORMAT (R336, R576 to R578) -/

/-- Step 1: the crypto-erase of the key spaces in scope. -/
def Dev.beginFormat (d : Dev) (cid : Nat) (all : Bool) (space : Nat) (draw : EraseDraw) : Dev :=
  let keys : Tbl DataKey := d.boot.keys.map fun e =>
    (e.1, if all || e.1 == space then e.2.rewritten d.boot.saltA (drawKey draw.keys e.1) (e.2.gen + 1) else e.2)
  let d := (({ d with boot := { d.boot with keys := keys } }).reloadSlots).fcEmpty
  let kept := if all then d.adm.jobs.filter fun e => e.1 / 256 != 2 else d.adm.jobs
  let d := { d with adm := { d.adm with jobs := kept } }
  (if all then d.setJob 7 0 (freshJob 1 0) else d.setJob 2 space (freshJob 0 0)).answer cid St.ok []

/-- FORMAT. -/
def doFormat (cid : Nat) (draw : EraseDraw) (d : Dev) : Dev :=
  let allOf (c : Cmd) : Bool := fieldBe c.payload 0 1 == 1
  let scope (c : Cmd) (s : Nat) : Bool := allOf c || s == c.space
  let go (c : Cmd) (d : Dev) : Dev :=
    if d.eraseWaits (scope c) then d else d.beginFormat cid (allOf c) c.space draw
  match d.cmd cid with
  | none => d
  | some c =>
    if c.op = Op.format ∧ c.st = .running then go c d
    else d.mgmt cid Op.format fun c x =>
      let form := fieldBe c.payload 4 4 == 0x464F524D && decide (fieldBe c.payload 0 1 ≤ 1) &&
        fieldBe c.payload 2 2 == 0 && (allOf c || (look c.space d.boot.set_.spaces).isSome)
      let busy := d.sanitizing || d.jobRuns 3 || d.formatShares (allOf c) c.space
      match d.eraseCheck x form (fieldBe c.payload 1 1) busy (scope c) with
      | some st => d.answer cid st []
      | none => go c (d.updCmd cid fun y => { y with st := .running })

/-- A walk over the index has written the checkpoint of every segment of it (R577): those of the map alone may still
be behind. -/
def Swath.walked (s : Swath) : Swath :=
  let isMap (g : Nat) : Bool := decide (4608 ≤ g)
  { s.endPass (s.rseq - 1) (s.dirtyAll.filter fun g => !isMap g) with
    dirty := s.dirty.filter isMap, pass := s.pass.map fun p => (p.1, p.2.filter isMap) }

/-- Index and page map emptied at once, with empty checkpoints (R577). -/
def Swath.emptied (s : Swath) : Swath :=
  { s.endPass (s.rseq - 1) s.dirtyAll with
    keys := [], tombs := [], links := [], map := [], units := [], pack := [], packOpen := none, vc := [],
    unready := [], holdRing := [], dirty := [], ring := [], rebuild := [] }

/-- Every key of a key space leaves a swath (R577). -/
def Dev.removeSpace (d : Dev) (n : Fin 16) (space : Nat) : Dev :=
  let d := ((d.sw n).keys.filter fun k => k.space == space).foldl (fun d k => d.dropCopy n k) d
  d.updSw n fun s =>
    let gone := s.tombs.filter fun t => t.space == space
    let s := { s with tombs := s.tombs.filter fun t => t.space != space }.freeMapUnits (gone.flatMap Tomb.units)
    { s with holdRing := s.holdRing.filter fun e => e.space != space }.walked

/-- FORMAT ends: the keys in scope are gone and the counts follow. -/
def Dev.endFormat (d : Dev) (all : Bool) (space : Nat) : Dev :=
  let d := allSwaths.foldl (fun d n =>
    (if all then d.updSw n Swath.emptied else d.removeSpace n space).recount n) d
  if all then d.endJob 7 0 true St.ok else d.endJob 2 space true St.ok

/-! ### ADMIN_JOB_END (R569) -/

/-- A job reaches its end. Evacuations and tests end by their own steps. -/
def doAdminJobEnd (job target : Nat) (d : Dev) : Dev :=
  let st (j t : Nat) : Nat := ((d.job j t).map (·.st)).getD 0
  if job = 1 then (if st 1 0 = 1 then d.endSanitize else d)
  else if job = 2 then
    if st 7 0 = 1 then d.endFormat true 0
    else if st 2 target = 1 then d.endFormat false target
    else d
  else if job = 3 then doEvacuationEnd d
  else d

/-! ### PROGRESS (Table 4-14, R565, R567) -/

/-- The record PROGRESS answers with. -/
def Dev.jobFor (d : Dev) (job target : Nat) : Option Job :=
  if job = 2 then d.job 2 target <|> d.job 7 0
  else if job = 1 ∨ job = 5 then d.job job 0
  else d.job job target

def doProgress (cid : Nat) (d : Dev) : Dev :=
  d.mgmt cid Op.progress fun c _ =>
    let job := fieldBe c.payload 0 1
    let target := fieldBe c.payload 1 1
    if job = 0 ∨ 5 < job ∨ fieldBe c.payload 2 2 ≠ 0 then d.answer cid St.malformed []
    else
      match d.jobFor job target with
      | none => d.answer cid St.ok (zeros 16)
      | some j =>
        let left := if j.st = 1 ∨ j.st = 4 then Config.remainS job target j.permille j.elapsed else 0
        d.answer cid St.ok (be 1 j.st ++ be 1 j.result ++ be 2 j.permille ++ be 4 j.elapsed ++ be 4 left ++ zeros 4)

/-! ### STATUS (Table 4-15) -/

/-- Value bytes stored, every copy counted. -/
def Dev.usedBytes (d : Dev) : Nat := (allSwaths.map fun n => ((d.sw n).keys.map fun k => k.value.length).sum).sum

/-- Value bytes still reservable, over all online swaths (R179). -/
def Dev.freeBytes (d : Dev) : Nat := ((allSwaths.filter d.online).map fun n => lookD n.val 0 d.disp.lfree).sum

def Dev.keyCount (d : Dev) : Nat := (allSwaths.map fun n => (d.sw n).keys.length).sum

/-- Per mille of 3,000 QLC cycles, 60,000 wear units (R296), by the most worn swath. -/
def Dev.wearPermille (d : Dev) : Nat := (allSwaths.map fun n => (d.sw n).avgWear).foldl max 0 * 1000 / 60000

/-- The 96 bytes of Table 4-15. -/
def Dev.statusBlock (d : Dev) : List Byte :=
  let temp := unsignedOf 16 ((look 0 d.pw.temp).getD 0)
  let job := if d.jobRuns 1 then 1 else if d.jobRuns 2 || d.jobRuns 7 then 2 else 0
  d.boot.verBytes ++ be 1 d.envelope ++ be 1 d.trust ++ be 1 job ++ be 1 (b2n d.boot.owner.isSome) ++
    be 8 d.stamp ++ (allSwaths.flatMap fun n => be 1 (d.swathState n)) ++ be 8 d.usedBytes ++ be 8 d.freeBytes ++
    be 8 d.keyCount ++ be 4 d.budget ++ be 4 (d.fld Base.pwr F.PWR_DRAW_MW) ++ be 2 temp ++ be 2 d.wearPermille ++
    be 4 d.disp.defLog.length ++ d.boot.serial

def doStatus (cid : Nat) (d : Dev) : Dev :=
  d.mgmt cid Op.status fun _ _ => d.answer cid St.ok d.statusBlock

end Sys2Proof.Machine
end

