-- ==== Sys2Proof/Machine/RegView.lean ====
section
/-!
DEFINITION. What a read of a management register returns (chapter "Register map"): fields whose home
is the drive's own state are computed here, the others are read from `Dev.regs`. The entries that the
array windows latch (Table 18-3).
-/
namespace Sys2Proof.Machine

/-! ### Words from fields -/

/-- A word from fields, each given by its lowest bit, its width and its value. -/
def packWord (l : List (Nat × Nat × Nat)) : Word := l.foldl (fun w e => withBits w e.1 e.2.1 e.2.2) 0

/-- A word of 32 bits of a wider number. -/
def word (n : Nat) : Word := BitVec.ofNat 32 n

/-- A word of flags, bit 0 first. -/
def flagWord (p : Nat → Bool) : Word :=
  word (((List.range 32).filter p).foldl (fun n j => n + 2 ^ j) 0)

/-- Bytes 4k to 4k + 3 of a string, byte 4k in bits [31:24]. -/
def bytesWord (l : List Byte) (k : Nat) : Word := word (fieldBe (padTo (4 * k + 4) l) (4 * k) 4)

/-! ### Codes of states -/

/-- Table 15-2. -/
def SlotSt.code : SlotSt → Nat
  | .empty => 0 | .stored => 1 | .pending => 2 | .trial => 3 | .active => 4 | .fallback => 5 | .superseded => 6

/-- SES_CTX_W0.STATE. -/
def CtxSt.code : CtxSt → Nat
  | .opening => 1 | .opened => 2 | .frozen => 3 | .closing => 4

/-- Table 8-5, in table order from 0. -/
def SbSt.code : SbSt → Nat
  | .erased => 0 | .slcOpen => 1 | .slcFull => 2 | .tedding => 3 | .qlcOpen => 4 | .qlcFull => 5
  | .gleaning => 6 | .erasing => 7 | .retired => 8

/-! ### Requester paths (R601, R602) -/

/-- The words of a latching window, by its select register: the select's base address and the first
and last data register (Table 18-3). -/
def windowsGlobal : List (Nat × Nat × Nat) :=
  [(0x820, 0x824, 0x82C), (0x844, 0x848, 0x84C), (0xA14, 0xA18, 0xA34), (0x10034, 0x10038, 0x10038),
    (0x10040, 0x10044, 0x10044), (0x50200, 0x50204, 0x50214), (0x70110, 0x70114, 0x7011C),
    (0x70210, 0x70214, 0x7022C), (0x70300, 0x70304, 0x70304)]

/-- The latching windows of a swath block, by offset. -/
def windowsSw : List (Nat × Nat × Nat) :=
  [(0x630, 0x634, 0x640), (0x830, 0x834, 0x834), (0x90C, 0x910, 0x914), (0x934, 0x938, 0x938),
    (0x950, 0x954, 0x954)]

/-- An address inside the swath blocks. -/
def inSw (a : Nat) : Bool := decide (0x100000 ≤ a ∧ a < 0x200000)

/-- The swath and the offset an address names. -/
def swOf (a : Nat) : Fin 16 := finSw ((a - 0x100000) / 0x10000)
def swOff (a : Nat) : Nat := a % 0x10000

/-- The window whose select register is at an address: its first data register and how many. -/
def windowAt (a : Nat) : Option (Nat × Nat) :=
  let of (base off : Nat) (l : List (Nat × Nat × Nat)) : Option (Nat × Nat) :=
    (l.find? fun e => e.1 == off).map fun e => (base + e.2.1, (e.2.2 - e.2.1) / 4 + 1)
  if inSw a then of (a - swOff a) (swOff a) windowsSw else of 0 a windowsGlobal

/-- Registers whose read latches others, with the registers latched (R601). -/
def pairsOf (a : Nat) : List Nat :=
  if a ∈ [0x218, 0x80C, 0x30008, 0x30030, 0x30038, 0x30040, 0x30048, 0x70108] then [a + 4]
  else if a ∈ [0x40028, 0x41028, 0x42028] then [a + 4]
  else if a ∈ [0x400B0, 0x410B0, 0x420B0] then [a + 4, a + 8]
  else if inSw a && (swOff a == 0x808 || swOff a == 0x810) then [a + 4]
  else []

/-- Registers that hold what their path latched: the upper registers of R601. -/
def isPaired (a : Nat) : Bool :=
  a ∈ [0x21C, 0x810, 0x3000C, 0x30034, 0x3003C, 0x30044, 0x3004C, 0x7010C] ||
  a ∈ [0x4002C, 0x4102C, 0x4202C, 0x400B4, 0x410B4, 0x420B4, 0x400B8, 0x410B8, 0x420B8] ||
  (inSw a && (swOff a == 0x80C || swOff a == 0x814))

/-- The address registers of the stepping windows (R603). -/
def isStepAddr (a : Nat) : Bool :=
  a == Addr.tcAddr || a == Addr.paAddr || a ∈ [0x40090, 0x41090, 0x42090]

/-- Data registers of latching windows. -/
def isWindowData (a : Nat) : Bool :=
  let inside (off : Nat) (l : List (Nat × Nat × Nat)) : Bool :=
    l.any fun e => decide (e.2.1 ≤ off ∧ off ≤ e.2.2)
  if inSw a then inside (swOff a) windowsSw else inside a windowsGlobal

/-- Every register kept once for each requester path. -/
def perPath (a : Nat) : Bool := isPaired a || isStepAddr a || (windowAt a).isSome || isWindowData a

/-! ### Window entries (Table 18-3) -/

/-- Context `sid` (Table 3-16). -/
def Dev.ctxWords (d : Dev) (sid : Nat) : List Word :=
  match d.ctx sid with
  | none => [0, 0, 0, 0, 0]
  | some c =>
    [packWord [(0, 3, c.st.code), (3, 2, c.port.idx), (5, 1, b2n c.isSealed), (6, 1, b2n c.admin),
        (7, 1, b2n c.rekeyDue), (8, 8, c.profile), (16, 13, c.credit)],
      word c.rxAck, word c.txNext, word c.txAcked,
      packWord [(0, 13, d.inflight sid), (16, 16, c.epoch)]]

/-- A deferred-error entry (Table 5-9). -/
def Dev.defWords (d : Dev) (i : Nat) : List Word :=
  match look i d.disp.defLog with
  | none => List.replicate 7 0
  | some e =>
    let w := (d.disp.defLog.filter fun x => !x.2.delivered && x.2.sid == e.sid && x.1 != i).length
    ((List.range 6).map (bytesWord (defRecord e w))) ++
      [packWord [(0, 14, e.sid), (14, 1, b2n e.delivered), (15, 1, 1)]]

/-- A placement slot (Table 7-8). -/
def Dev.plcWord (d : Dev) (s : Nat) : Word :=
  let x := d.slot s
  packWord [(0, 4, x.owner.val), (4, 4, x.partner.val), (8, 4, x.home.val), (12, 3, x.st)]

/-- Bytes to whole MiB. -/
def toMib (n : Nat) : Nat := n / 1048576

/-- A superblock (Table 8-13). -/
def Swath.sbWords (s : Swath) (i : Nat) : List Word :=
  if 2048 ≤ i then [0, 0, 0, 0]
  else
    let x := s.sb i
    [packWord [(0, 4, x.st.code), (4, 1, b2n x.isMeta), (5, 1, b2n x.refresh), (6, 1, b2n x.closed),
        (7, 7, x.replaced)],
      packWord [(0, 20, (s.validIn i).length)], packWord [(0, 17, x.wear)], word x.closedS]

/-- The key slot of a key space (Table 9-6). -/
def Dev.keyStat (d : Dev) (n : Fin 16) (space : Nat) : Word :=
  let k := look space d.boot.keys
  packWord [(0, 1, b2n ((d.sw n).slotsIn.contains space)), (1, 1, b2n ((k.map (·.unwrapBad)).getD false)),
    (16, 16, (k.map (·.gen)).getD 0)]

/-- Windows and masters of R379: 148 masters of 16 windows. -/
def Dev.awWords (d : Dev) (sel : Word) : List Word :=
  let m := bitsOf sel 0 8
  let e := m * 16 + bitsOf sel 8 4
  let pay := if d.boot.fwSlotB then d.boot.payB else d.boot.payA
  if 147 < m then [0, 0, 0]
  else
    [Config.windowWord pay e 0 &&& fieldMask 0 28, Config.windowWord pay e 1 &&& fieldMask 0 28,
      Config.windowWord pay e 2 &&& fieldMask 0 4]

/-- Reset information of function f (Table 11-9). -/
def Dev.rstWords (d : Dev) (f : Nat) : List Word :=
  match (if f < 24 then look f d.irq.rst else none) with
  | none => [0, 0]
  | some i => [packWord [(0, 16, i.count), (16, 2, i.cause)], word i.us]

/-- An inventory entry, the drive's own at its own position; bit 4 of SFLAGS tells stale (Table 15-6). -/
def Dev.invWords (d : Dev) (pos : Nat) : List Word :=
  let l := match look pos d.boot.inv with
    | some e =>
      let sf := fieldBe e.bytes 30 1
      overlay (padTo 32 e.bytes) 30 (be 1 (setBit sf 4 e.stale))
    | none => if pos = d.chainPos then d.ownEntry else []
  (List.range 8).map (bytesWord l)

/-- What a select value latches into its window's data registers, in order. -/
def Dev.windowEntry (d : Dev) (a : Nat) (sel : Word) : List Word :=
  if inSw a then
    let n := swOf a
    let s := d.sw n
    let o := swOff a
    if o = 0x630 then s.sbWords (bitsOf sel 0 11)
    else if o = 0x830 then [d.keyStat n (bitsOf sel 0 8)]
    else if o = 0x90C then
      match look (bitsOf sel 0 8) s.log with
      | none => [0, 0]
      | some e => [packWord [(0, 28, e.granule), (28, 4, e.dev)],
          packWord [(0, 8, e.count), (8, 8, e.passes), (16, 2, e.source), (31, 1, 1)]]
    else if o = 0x934 then
      match s.cl[bitsOf sel 0 5]? with
      | none => [0]
      | some e => [packWord [(0, 28, e.1), (28, 4, e.2)]]
    else
      match s.remap[bitsOf sel 0 8]? with
      | none => [0]
      | some p => [packWord [(0, 23, p), (31, 1, 1)]]
  else if a = 0x820 then d.awWords sel
  else if a = 0x844 then d.rstWords (bitsOf sel 0 5)
  else if a = 0xA14 then d.invWords (bitsOf sel 0 6)
  else if a = 0x10034 then [word (if bitsOf sel 0 7 < 66 then lookD (bitsOf sel 0 7) 0 d.pw.droops else 0)]
  else if a = 0x10040 then
    let k := bitsOf sel 0 6
    if 50 ≤ k then [0]
    else [packWord [(0, 16, unsignedOf 16 (lookD k 0 d.pw.temp)), (16, 16, unsignedOf 16 (lookD k 0 d.pw.tempMax))]]
  else if a = 0x50200 then d.ctxWords (bitsOf sel 0 14)
  else if a = 0x70110 then
    let n := bitsOf sel 0 4
    [packWord [(0, 24, toMib (lookD n 0 d.disp.lfree))], packWord [(0, 24, toMib (d.pfreeOf (finSw n)).toNat)],
      packWord [(0, 31, lookD n 0 d.disp.kfree)]]
  else if a = 0x70210 then d.defWords (bitsOf sel 0 14)
  else if a = 0x70300 then [d.plcWord (bitsOf sel 0 8)]
  else []

/-! ### Computed registers -/

/-- Fields of a stored register replaced by computed ones. -/
def Dev.withFields (d : Dev) (a : Nat) (l : List (Nat × Nat × Nat)) : Word :=
  l.foldl (fun w e => withBits w e.1 e.2.1 e.2.2) (d.reg a)

/-- The bits of an input in GLB_IN_STAT. -/
def Dev.inBits (d : Dev) (i : Discrete) : Nat :=
  let x := d.input i
  b2n x.active + 2 * b2n (d.inputOn i) + 4 * b2n x.stuck + 8 * b2n x.susp

/-- The global block. -/
def Dev.glbWord (d : Dev) (a : Nat) : Word :=
  let b := d.boot
  if a = 0 then
    packWord [(0, 8, stepping), (8, 8, b.runVer / 2 ^ 16), (16, 8, b.runVer / 2 ^ 8), (24, 8, b.runVer)]
  else if a ≤ 0x18 then bytesWord b.serial ((a - 4) / 4)
  else if a = 0x1C then packWord [(0, 1, b2n b.owner.isSome)]
  else if a = 0x204 then
    d.withFields a [(0, 1, b2n b.fwSlotB), (1, 3, b.fwA.code), (4, 3, b.fwB.code), (7, 2, b.tries),
      (10, 1, b2n b.setSlotB), (11, 3, b.setA.code), (14, 3, b.setB.code), (17, 7, b.secCount)]
  else if a = 0x218 then word b.whenAt
  else if a = 0x21C then word (b.whenAt / 2 ^ 32)
  else if a = 0x710 then packWord [(0, 20, Config.stewardJournal 0)]
  else if a = 0x714 then packWord [(0, 16, Config.stewardJournal 1), (16, 16, Config.stewardJournal 2)]
  else if a = 0x90C then packWord [(0, 4, d.inBits .holdA), (8, 4, d.inBits .holdB), (16, 4, d.inBits .rstInN)]
  else if a = 0x910 then packWord [(0, 10, d.io.holdA.suspS), (10, 10, d.io.holdB.suspS), (20, 10, d.io.rst.suspS)]
  else if a = 0x920 then
    d.withFields a [(2, 1, b2n d.io.faultN), (3, 1, b2n (d.fld Base.pwr F.PWR_HOLD_HEALTH == 3)),
      (4, 1, b2n d.pw.stopped), (5, 1, b2n d.faultLow)]
  else if a = 0xA04 then
    packWord [(0, 1, b2n d.io.upHere), (1, 1, b2n d.io.dnHere), (2, 1, b2n d.io.upLock), (3, 1, b2n d.io.dnLock)]
  else if a = 0xA10 then
    d.withFields a [(0, 6, d.chainPos), (6, 1, b2n d.isHead),
      (7, 1, b2n (d.isHead || d.flag Base.glb F.GLB_CHAIN_POS_VALID)),
      (8, 6, (b.inv.filter fun e => !e.2.stale && decide (d.chainPos < e.1)).length)]
  else d.reg a

/-- A source's register (Table 11-11). -/
def Dev.srcWord (d : Dev) (k : Nat) : Word :=
  let x := d.src k
  packWord [(0, 4, d.srcPrio k), (4, 5, if k < 1024 then bitsOf (d.reg (srcReg k)) 4 5 else d.srcTarget k),
    (16, 8, x.events), (24, 1, b2n (d.signal k)), (25, 1, b2n (d.srcPending k)), (26, 1, b2n x.service),
    (27, 1, b2n x.latch), (28, 1, b2n x.storm)]

/-- The value a read of a claim register returns to a master that claims nothing (R393). -/
def Dev.claimView (d : Dev) (t : Nat) : Word := ((d.bestSource t).map d.claimWord).getD 0

/-- The event bit of a source of kind E. -/
def Dev.eventBit (d : Dev) (k : Nat) : Bool :=
  (d.src k).event && !(if k < 1024 then kindC k else kindCPriv ((k - 1024) % 64))

/-- The interrupt controller's block. -/
def Dev.irqWord (d : Dev) (a : Nat) : Word :=
  let o := a - Base.irq
  if o = 0x014 then d.claimView 0
  else if o = 0x024 then d.claimView 17
  else if o = 0x044 then
    let s := d.ntfSession
    packWord [(0, 14, s.getD 0), (14, 1, b2n s.isSome), (16, 7, d.irq.out.length)]
  else if 0x080 ≤ o ∧ o < 0x0A0 then flagWord fun j => d.eventBit (8 * (o - 0x080) + j)
  else if 0x0A0 ≤ o ∧ o < 0x0C0 then flagWord fun j => d.srcPending (8 * (o - 0x0A0) + j)
  else if 0x0C0 ≤ o ∧ o < 0x0E0 then flagWord fun j => (d.src (8 * (o - 0x0C0) + j)).service
  else if 0x100 ≤ o ∧ o < 0x200 then d.srcWord (priv 0 ((o - 0x100) / 4))
  else if 0x200 ≤ o ∧ o < 0x300 then d.srcWord (priv 17 ((o - 0x200) / 4))
  else if 0x400 ≤ o ∧ o < 0x800 then d.srcWord ((o - 0x400) / 4)
  else d.reg a

/-- The calendar and recorder block. -/
def Dev.calWord (d : Dev) (a : Nat) : Word :=
  if a = 0x30008 then word d.stamp
  else if a = 0x3000C then word (d.stamp / 2 ^ 32)
  else if a = 0x30010 then word (min (2 ^ 32 - 1) d.uncertMs)
  else if a = 0x30028 then word (unsignedOf 32 (satOffset d.cal.offset))
  else if a = 0x30104 then
    packWord [(0, 20, d.evr.recs.length), (20, 1, b2n (decide (recCap ≤ d.evr.recs.length))),
      (21, 11, d.evr.accums.length)]
  else if a = 0x30108 then word d.evr.next
  else if a = 0x3010C then word ((d.evr.recs.head?.map (·.index)).getD 0)
  else d.reg a

/-- The MAC address of a port (R22). -/
def Dev.portMac (d : Dev) (p : PortId) : Nat := (d.boot.mac.toNat + p.idx) % 2 ^ 48

/-- The port an address of the port blocks names. -/
def portOf (a : Nat) : PortId := if a < 0x41000 then .a else if a < 0x42000 then .b else .c

/-- A port's block. -/
def Dev.prtWord (d : Dev) (path : ReqPath) (a : Nat) : Word :=
  let p := portOf a
  let o := a - Base.prt p
  if o = 0x028 then word (d.portMac p)
  else if o = 0x02C then word (d.portMac p / 2 ^ 32)
  else if o = 0x034 then d.withFields a [(0, 16, d.poolFree)]
  else if o = 0x094 then d.gclDataRead p path
  else if o = 0x0B0 then word d.cal.ptpNs
  else if o = 0x0B4 then word d.cal.ptpSec
  else if o = 0x0B8 then packWord [(0, 16, d.cal.ptpSec / 2 ^ 32)]
  else d.reg a

/-- The session engine's block. -/
def Dev.sesWord (d : Dev) (a : Nat) : Word :=
  if a = 0x50024 then
    packWord [(0, 15, d.ses.ctx.length), (16, 15, (d.ses.ctx.filter fun e => e.2.st == .frozen).length)]
  else d.reg a

/-- The matcher's block. -/
def Dev.polWord (d : Dev) (path : ReqPath) (a : Nat) : Word :=
  if a = Addr.tcData then d.tcDataRead path
  else if a = Addr.paData then d.paDataRead path
  else if a = 0x6008C then d.withFields a [(8, 13, (d.pol.tc.filter fun e => e.2.valid).length)]
  else d.reg a

/-- The dispatcher's block. -/
def Dev.dspWord (d : Dev) (a : Nat) : Word :=
  if a = 0x70104 then packWord [(0, 17, 65536 - d.disp.tags)]
  else if a = 0x70108 then word d.disp.admNum
  else if a = 0x7010C then word (d.disp.admNum / 2 ^ 32)
  else if a = 0x70204 then
    let n := (d.disp.defLog.filter fun e => e.2.delivered).length
    packWord [(0, 15, d.disp.defLog.length - n), (16, 15, n)]
  else if a = 0x70804 then packWord [(0, 19, d.disp.fc.length)]
  else d.reg a

/-- Places in a swath's hazard table that wait under R181. -/
def Dev.chained (d : Dev) (n : Fin 16) : Nat :=
  ((d.sw n).haz.filter fun h =>
    let rd : Bool := match h.item with
      | .cmd c => ((d.cmd c).map fun x => isRead x.op).getD false
      | .hold _ _ _ => false
    !d.chainOk n h.item h.space h.hash rd).length

/-- Greatest of the spare counts over the 128 planes turned round: the fewest and its plane. -/
def Swath.fewestSpares (s : Swath) : Nat × Nat :=
  (List.range 128).foldl (fun b p => if (s.sparesIn p).length < b.1 then ((s.sparesIn p).length, p) else b)
    ((s.sparesIn 0).length, 0)

/-- A ratio times 1,000, at most 65,535; 0 while nothing has been accepted. -/
def perMilleOf (a b : Nat) : Nat := if b = 0 then 0 else min 65535 (a * 1000 / b)

/-- A swath's block. -/
def Dev.swWord (d : Dev) (a : Nat) : Word :=
  let n := swOf a
  let s := d.sw n
  let o := swOff a
  if o = 0x000 then packWord [(0, 3, d.swathState n)]
  else if o = 0x004 then
    packWord [(0, 9, d.ownedSlots n), (9, 8, min 255 ((List.range 256).filter fun k =>
      (d.slot k).partner == n).length)]
  else if 0x300 ≤ o ∧ o < 0x400 then
    if d.boot.running then Config.mailboxWord n.val ((o - 0x300) / 4) d.now else d.reg a
  else if o = 0x404 then
    packWord [(0, 11, s.units.length), (16, 11, (s.units.filter fun u => u.2.st == .held).length)]
  else if o = 0x40C then packWord [(0, 13, s.haz.length), (16, 13, d.chained n)]
  else if o = 0x410 then packWord [(0, 13, 4096 - lookD n.val 0 d.disp.slots)]
  else if o = 0x500 then packWord [(0, 31, s.keys.length)]
  else if o = 0x504 then packWord [(0, 25, s.ovfUsed)]
  else if o = 0x508 then packWord [(0, 13, s.dirtyAll.length), (16, 7, s.ring.length * 100 / ringCap)]
  else if o = 0x524 then packWord [(0, 25, s.vc.length)]
  else if o = 0x528 then packWord [(0, 31, (s.keys.filter (·.ahead)).length)]
  else if o = 0x610 then
    packWord [(0, 12, s.sbService), (12, 12, s.freeSb), (24, 3, if s.fallow then 4 else s.mode),
      (27, 1, b2n (d.direct n))]
  else if o = 0x614 then
    packWord [(0, 5, 24 - s.slcInUse), (5, 5, s.countSb fun x => x.st == .slcFull), (10, 1, b2n s.slcOpen.isSome),
      (11, 1, b2n s.ted.isSome)]
  else if o = 0x618 then
    let f := s.fewestSpares
    packWord [(0, 14, ((List.range 128).map fun p => (s.sparesIn p).length).sum), (14, 8, f.1), (22, 7, f.2)]
  else if o = 0x61C then
    packWord [(0, 16, s.avgWear / 20), (16, 16, (s.sbs.map fun e => e.2.wear).foldl max 0 / 20)]
  else if o = 0x620 then packWord [(0, 16, perMilleOf s.progB (5 * s.hostB)), (16, 16, perMilleOf s.gleanB s.hostB)]
  else if o = 0x624 then packWord [(0, 8, (s.discards.filter (d.discarding ·)).length), (8, 12, s.countSb fun x => x.target)]
  else if o = 0x804 then d.withFields a [(4, 9, s.slotsIn.length)]
  else if o = 0x808 then word s.count
  else if o = 0x80C then packWord [(0, 28, s.count / 2 ^ 32)]
  else if o = 0x810 then word s.mark
  else if o = 0x814 then packWord [(0, 28, s.mark / 2 ^ 32)]
  else if o = 0x904 then d.withFields a [(6, 9, s.remap.length)]
  else if o = 0x930 then d.withFields a [(16, 6, s.cl.length)]
  else if o = 0x9A0 then packWord [(0, 20, s.spareLines)]
  else if o = 0x9A4 then
    packWord [(0, 16, s.jmWear / 2 ^ 26 / 1000000), (16, 16, Config.jmWearMax n.val s.jmWear)]
  else if 0xA00 ≤ o ∧ o < 0xB00 then d.srcWord (privSw n ((o - 0xA00) / 4))
  else if o = 0xB04 then d.claimView (n.val + 1)
  else if o = 0xB10 ∨ o = 0xB14 then flagWord fun j => d.eventBit (privSw n (8 * (o - 0xB10) + j))
  else if o = 0xB18 ∨ o = 0xB1C then flagWord fun j => d.srcPending (privSw n (8 * (o - 0xB18) + j))
  else d.reg a

/-- The register's own value, whatever a path has latched. -/
def Dev.liveWord (d : Dev) (path : ReqPath) (a : Nat) : Word :=
  if inSw a then d.swWord a
  else if a < 0x10000 then d.glbWord a
  else if 0x20000 ≤ a ∧ a < 0x30000 then d.irqWord a
  else if 0x30000 ≤ a ∧ a < 0x40000 then d.calWord a
  else if 0x40000 ≤ a ∧ a < 0x43000 then d.prtWord path a
  else if 0x50000 ≤ a ∧ a < 0x60000 then d.sesWord a
  else if 0x60000 ≤ a ∧ a < 0x70000 then d.polWord path a
  else if 0x70000 ≤ a ∧ a < 0x73000 then d.dspWord a
  else d.reg a

/-- What a read on a path returns (R597, R601, R602). -/
def Dev.readWord (d : Dev) (path : ReqPath) (a : Nat) : Word :=
  if (regDesc a).isNone then 0
  else if perPath a then d.pathReg path a
  else d.liveWord path a

end Sys2Proof.Machine
end

