-- ==== Sys2Proof/Machine/RegCmd.lean ====
section
/-!
DEFINITION. Accesses to the management registers (R597 to R603): reads with what they clear, latch and
step, masked writes with the operations they start, the error cases of R598, and the commands REG_READ
and REG_WRITE (R167).
-/
namespace Sys2Proof.Machine

/-! ### Functions and their registers -/

/-- The function that holds a register (R383, R407). The notification engine holds target 17's own
registers and the engine's, the event recorder the registers named EVR_. -/
def fnAt (a : Nat) : Option Fn :=
  if inSw a then some (.swath (swOf a))
  else if 0x40000 ≤ a ∧ a < 0x43000 then some (.port (portOf a))
  else if 0x50000 ≤ a ∧ a < 0x60000 then some .sessionEngine
  else if 0x60000 ≤ a ∧ a < 0x70000 then some .policyMatcher
  else if 0x70000 ≤ a ∧ a < 0x73000 then some .dispatcher
  else if (0x20020 ≤ a ∧ a < 0x2002C) ∨ (0x20040 ≤ a ∧ a < 0x20058) ∨ (0x200E0 ≤ a ∧ a < 0x200E8) ∨
      (0x20200 ≤ a ∧ a < 0x20300) then some .notification
  else if 0x30100 ≤ a ∧ a ≤ 0x30130 then some .eventRecorder
  else none

/-- The access waits at the boundary of a function under reset (R407). -/
def Dev.regWaits (d : Dev) (a : Nat) : Bool := ((fnAt a).map d.resetting).getD false

/-- The address names a register of a frozen function (R383). -/
def Dev.regFrozen (d : Dev) (a : Nat) : Bool := ((fnAt a).map d.fnFrozen).getD false

/-! ### Reads -/

/-- Latch the registers paired with one just read (R601). -/
def Dev.latchPairs (d : Dev) (path : ReqPath) (a : Nat) : Dev :=
  (pairsOf a).foldl (fun d x => d.setPathReg path x (d.liveWord path x)) d

/-- PRT_x_POOL_FREE, whose LOW a read clears to FREE (Table 2-15). -/
def isPoolFree (a : Nat) : Bool := a ∈ [0x40034, 0x41034, 0x42034]

/-- What a read does beside returning a value: an RC field clears, a stepping window steps, pairs are
latched. A session's read of a claim register claims nothing; the steward reads target 0's claim register
and the notification engine target 17's as their own master (R393, R600). -/
def Dev.readEffect (d : Dev) (path : ReqPath) (a : Nat) : Dev :=
  if isPoolFree a then d.setFld (Base.prt (portOf a)) F.PRT_POOL_FREE_LOW d.poolFree
  else if a = Addr.tcData then doTcDataAccess path none d
  else if a = Addr.paData then doPaDataAccess path none d
  else if a = Addr.gclData .a ∨ a = Addr.gclData .b ∨ a = Addr.gclData .c then doGclDataAccess (portOf a) path none d
  else if a = 0x20014 ∧ path = .steward then doIrqClaim 0 .own false d
  else if a = 0x20024 ∧ path = .notify then doIrqClaim 17 .own false d
  else d.latchPairs path a

/-- A read of a register on a path. -/
def Dev.readReg (d : Dev) (path : ReqPath) (a : Nat) : Dev × Word := (d.readEffect path a, d.readWord path a)

/-! ### Writes -/

/-- The masked update of R167. -/
def maskedWord (old mask value : Word) : Word := (old &&& ~~~ mask) ||| (value &&& mask)

/-- One field of a stored register under a masked write after start: only RW fields of origin L and
W1C fields change (R7, R600, Table 0-3). -/
def FieldDesc.write (f : FieldDesc) (x mask value : Word) : Word :=
  let m := fieldMask f.lo f.width &&& mask
  match f.acc, f.org with
  | .rw, .l => maskedWord x m value
  | .w1c, _ => x &&& ~~~ (value &&& m)
  | _, _ => x

/-- A stored register under a masked write. -/
def RegDesc.write (r : RegDesc) (old mask value : Word) : Word :=
  r.fields.foldl (fun x f => f.write x mask value) old

/-- A field of origin L would leave the range its table states (R598). -/
def FieldDesc.outside (f : FieldDesc) (old mask value : Word) : Bool :=
  match f.lim with
  | none => false
  | some (lo, hi) =>
    let v := bitsOf (maskedWord old mask value) f.lo f.width
    f.org == .l && f.acc == .rw && (fieldMask f.lo f.width &&& mask) != 0 && !decide (lo ≤ v ∧ v ≤ hi)

/-- The bits of a WO field a write names: a number from its masked value, and whether MASK covers any
bit of it. -/
def woField (mask value : Word) (lo width : Nat) : Option Nat :=
  if (fieldMask lo width &&& mask) = 0 then none else some (bitsOf (value &&& mask) lo width)

/-- A WO bit written as 1. -/
def woBit (mask value : Word) (k : Nat) : Bool := (value &&& mask).getLsbD k

/-- The masked write of the register's stored fields. -/
def Dev.store (d : Dev) (r : RegDesc) (a : Nat) (mask value : Word) : Dev :=
  d.setReg a (r.write (d.reg a) mask value)

/-- A write of a select register: the select is kept and the entry latched, on the path (R602). -/
def Dev.selectWindow (d : Dev) (path : ReqPath) (a first count : Nat) (sel : Word) : Dev :=
  let ws := d.windowEntry a sel
  (List.range count).foldl (fun d k => d.setPathReg path (first + 4 * k) (ws.getD k 0)) (d.setPathReg path a sel)

/-- The event bits a write of 1 clears (R391). -/
def Dev.clearEvents (d : Dev) (bits : Word) (k : Nat → Nat) : Dev :=
  ((List.range 32).filter fun j => bits.getLsbD j && d.eventBit (k j)).foldl
    (fun d j => d.setSrc (k j) { d.src (k j) with event := false }) d

/-- A write of a source's register: PRIO, but not of the private sources 18 to 63 of a swath (R401),
and a 1 to STORM lifts the mask (R398). -/
def Dev.writeSrc (d : Dev) (r : RegDesc) (a k : Nat) (mask value : Word) : Dev :=
  let fixed := 1024 + 64 ≤ k && k < 1024 + 64 * 17 && 18 ≤ (k - 1024) % 64
  let d := if fixed then d else d.setReg a (r.write (d.reg a) (mask &&& fieldMask 0 4) value)
  if woBit mask value 28 then d.setSrc k { d.src k with storm := false } else d

/-- GCL_ERR is set (R54, R56). -/
def Dev.gclError (d : Dev) (p : PortId) : Dev := d.setCond (Base.prt p) F.PRT_GCL_CTRL_GCL_ERR 1 (0x03 + 8 * p.idx)

/-- Writes in a port's block that do more than store. While a swap is PENDING, ADMIN_LEN and GCL_CYCLE
ignore writes (R56). -/
def Dev.writePort (d : Dev) (path : ReqPath) (r : RegDesc) (a : Nat) (mask value : Word) : Dev :=
  let p := portOf a
  let o := a - Base.prt p
  if o = 0x000 then
    let d := match woField mask value 0 1 with
      | some e => doPortEnableWrite p (e == 1) d
      | none => d
    if (fieldMask 8 2 &&& mask) = 0 then d
    else doLoopSet p (BitVec.ofNat 2 (bitsOf (maskedWord (d.reg a) mask value) 8 2)) d
  else if o = 0x080 then
    let held := d.flag (Base.prt p) F.PRT_GCL_CTRL_PENDING && (fieldMask 4 9 &&& mask) != 0
    let d := d.store r a (if held then mask &&& ~~~ (fieldMask 4 9) else mask) value
    let d := if held then d.gclError p else d
    if woBit mask value 1 then doGclSwapReq p d else d
  else if o = 0x084 ∧ d.flag (Base.prt p) F.PRT_GCL_CTRL_PENDING then d.gclError p
  else if o = 0x094 then doGclDataAccess p path (some (maskedWord (d.gclDataRead p path) mask value)) d
  else if o = 0x0C0 then
    let d := d.store r a mask value
    if woBit mask value 0 then d.setFld (Base.prt p) F.PRT_LBT_ERR_DONE 0 else d
  else if o = 0x484 then
    let k := 0x01 + 8 * p.idx
    let d' := d.store r a mask value
    if !d.signal k && d'.signal k then d'.condRose k else d'
  else d.store r a mask value

/-- Writes in the interrupt controller's block. -/
def Dev.writeIrq (d : Dev) (path : ReqPath) (r : RegDesc) (a : Nat) (mask value : Word) : Dev :=
  let o := a - Base.irq
  let done (t : Fin 18) (own : ReqPath) : Dev :=
    match woField mask value 0 10 with
    | some id => doIrqDone t (BitVec.ofNat 10 id) (if path = own then .own else .other) d
    | none => d
  if o = 0x018 then done 0 .steward
  else if o = 0x028 then done 17 .notify
  else if o = 0x048 then doNtfSwSet 0 (value &&& mask) d
  else if o = 0x04C then doNtfSwSet 1 (value &&& mask) d
  else if o = 0x050 then doNtfSwClr 0 (value &&& mask) d
  else if o = 0x054 then doNtfSwClr 1 (value &&& mask) d
  else if 0x080 ≤ o ∧ o < 0x0A0 then d.clearEvents (value &&& mask) fun j => 8 * (o - 0x080) + j
  else if 0x100 ≤ o ∧ o < 0x200 then d.writeSrc r a (priv 0 ((o - 0x100) / 4)) mask value
  else if 0x200 ≤ o ∧ o < 0x300 then d.writeSrc r a (priv 17 ((o - 0x200) / 4)) mask value
  else if 0x400 ≤ o ∧ o < 0x800 then d.writeSrc r a ((o - 0x400) / 4) mask value
  else d.store r a mask value

/-- Writes in the matcher's block. -/
def Dev.writePol (d : Dev) (path : ReqPath) (r : RegDesc) (a : Nat) (mask value : Word) : Dev :=
  if a = Addr.tcData then doTcDataAccess path (some (maskedWord (d.tcDataRead path) mask value)) d
  else if a = Addr.paData then doPaDataAccess path (some (maskedWord (d.paDataRead path) mask value)) d
  else if a = 0x60088 then
    match woField mask value 0 3 with
    | some op => d.tcCommand op (bitsOf (value &&& mask) 4 12) (bitsOf (value &&& mask) 16 12)
    | none => d
  else if a = 0x60100 then (if woBit mask value 1 then doPaSwapRequest d else d)
  else if a = 0x60110 then
    let d := match woField mask value 0 10 with
      | some _ => doPaTestLenWrite (bitsOf (maskedWord (d.reg a) mask value) 0 10) d
      | none => d
    let d := d.setReg a (r.write (d.reg a) (mask &&& fieldMask 10 3) value)
    if woBit mask value 13 then doPaTestGo d else d
  else if a = 0x60114 then (if mask = 0 then d else doPaTkeyWrite (value &&& mask) d)
  else d.store r a mask value

/-- The interrupt target of a swath (R389). -/
def swTarget (n : Fin 16) : Fin 18 := ⟨n.val + 1, by omega⟩

/-- Writes in a swath's block. -/
def Dev.writeSw (d : Dev) (r : RegDesc) (a : Nat) (mask value : Word) : Dev :=
  let n := swOf a
  let o := swOff a
  if o = 0x50C then (if woBit mask value 7 then doCkptForce n d else d)
  else if o = 0x520 then (if woBit mask value 1 then doVcFlush n d else d)
  else if o = 0x800 then (if woBit mask value 0 then d.setFld (Base.sw n) F.SW_CIP_STAT_KAT_DONE 0 else d)
  else if o = 0x900 then (if woBit mask value 2 then doUnmarkWrite n d else d)
  else if o = 0x920 then doDmaRestart n (BitVec.ofNat 8 (bitsOf (value &&& mask) 8 8)) d
  else if o = 0x930 then (if woBit mask value 31 then doClClear n d else d)
  else if o = 0x940 then
    let en := if d.swathState n = 4 then fieldMask 0 1 else 0
    let kill := if d.ownsSlots n then 0 else fieldMask 1 5
    let runs := d.swathState n = 4 ∧ d.fld (Base.sw n) F.SW_TST_STAT_TEST = 1 ∧ (value &&& mask).getLsbD 0
    let d := d.store r a (mask &&& (en ||| kill ||| fieldMask 8 16)) value
    if runs then d.checkerRun n else d
  else if 0xA00 ≤ o ∧ o < 0xB00 then d.writeSrc r a (privSw n ((o - 0xA00) / 4)) mask value
  else if o = 0xB08 then
    match woField mask value 0 10 with
    | some id => doIrqDone (swTarget n) (BitVec.ofNat 10 id) .other d
    | none => d
  else if o = 0xB10 ∨ o = 0xB14 then
    d.clearEvents (value &&& mask) fun j => privSw n (8 * (o - 0xB10) + j)
  else d.store r a mask value

/-- A write that meets no error case. -/
def Dev.writeReg (d : Dev) (path : ReqPath) (r : RegDesc) (a : Nat) (mask value : Word) : Dev :=
  match windowAt a with
  | some (first, count) => d.selectWindow path a first count (r.write (d.pathReg path a) mask value)
  | none =>
    if isStepAddr a then d.setPathReg path a (r.write (d.pathReg path a) mask value)
    else if inSw a then d.writeSw r a mask value
    else if 0x20000 ≤ a ∧ a < 0x30000 then d.writeIrq path r a mask value
    else if 0x40000 ≤ a ∧ a < 0x43000 then d.writePort path r a mask value
    else if 0x60000 ≤ a ∧ a < 0x70000 then d.writePol path r a mask value
    else if a = 0x00100 then
      let d := if woBit mask value 1 then doConfirm d else d
      if woBit mask value 0 then doShutdown d else d
    else if a = 0x10054 then
      if woBit mask value 8 then { d with pw := { d.pw with testDue := true } } else d
    else if a = 0x30100 then (if woBit mask value 17 then doCloseNow d else d)
    else if a = 0x70200 then (if woBit mask value 0 then doDefClearDelivered d else d)
    else if a = 0x70800 then (if woBit mask value 1 then doFcFlush d else d)
    else d.store r a mask value

/-- The size of test frames is at most MAXFRM (Table 16-6). -/
def Dev.lbtTooLong (d : Dev) (a : Nat) (mask value : Word) : Bool :=
  a ∈ [0x400C0, 0x410C0, 0x420C0] && (fieldMask 17 14 &&& mask) != 0 &&
    decide (d.fld (Base.prt (portOf a)) F.PRT_FRAME_MAXFRM < bitsOf (maskedWord (d.reg a) mask value) 17 14)

/-- What a write on a path does; none in the error cases of R598. -/
def Dev.writeEntry (d : Dev) (path : ReqPath) (a : Nat) (mask value : Word) : Option Dev :=
  if (spanOf a).isNone || (inSw a && decide (0x300 ≤ swOff a ∧ swOff a ≤ 0x3FC)) || d.regFrozen a then none
  else
    match regDesc a with
    | none => some d
    | some r =>
      if (r.fields.any fun f => f.outside (d.readWord path a) mask value) || d.lbtTooLong a mask value then none
      else some (d.writeReg path r a mask value)

/-! ### REG_READ and REG_WRITE (R167) -/

/-- Note how far a request has come. -/
def Dev.regProgress (d : Dev) (cid at_ : Nat) (vals : List Byte) : Dev :=
  d.updCmd cid fun c => { c with regAt := at_, regVals := vals }

/-- Read registers one after another. Ends with a status, or with none where an access waits. -/
def readLoop (cid addr : Nat) : Nat → Nat → List Byte → Dev → Dev × Option Nat
  | 0, _, _, d => (d, some St.ok)
  | f + 1, k, vals, d =>
    let a := addr + 4 * k
    if (spanOf a).isNone then (d, some St.rangeInvalid)
    else if d.regWaits a then (d, none)
    else
      let r := d.readReg .session a
      let vals := vals ++ be 4 r.2.toNat
      readLoop cid addr f (k + 1) vals (r.1.regProgress cid (k + 1) vals)

/-- REG_READ. -/
def doRegRead (cid : Nat) (d : Dev) : Dev :=
  d.mgmt cid Op.regRead fun c _ =>
    let addr := fieldBe c.payload 0 4
    match readLoop cid addr (fieldBe c.payload 4 2 - c.regAt) c.regAt c.regVals d with
    | (d, none) => d
    | (d, some st) =>
      let q := ((d.cmd cid).map fun q => (q.regAt, q.regVals)).getD (0, [])
      d.answer cid st (be 4 addr ++ be 2 q.1 ++ zeros 2 ++ q.2)

/-- Apply entries one after another. -/
def writeLoop (cid : Nat) (p : List Byte) : Nat → Nat → Dev → Dev × Option Nat
  | 0, _, d => (d, some St.ok)
  | f + 1, k, d =>
    let a := fieldBe p (4 + 12 * k) 4
    let mask := BitVec.ofNat 32 (fieldBe p (8 + 12 * k) 4)
    let value := BitVec.ofNat 32 (fieldBe p (12 + 12 * k) 4)
    if d.regWaits a then (d, none)
    else
      match d.writeEntry .session a mask value with
      | none => (d, some St.rangeInvalid)
      | some d => writeLoop cid p f (k + 1) (d.regProgress cid (k + 1) [])

/-- An entry's ADDR is not a multiple of 4. -/
def oddAddr (p : List Byte) (count : Nat) : Bool := (List.range count).any fun k => fieldBe p (4 + 12 * k) 4 % 4 != 0

/-- REG_WRITE. -/
def doRegWrite (cid : Nat) (d : Dev) : Dev :=
  d.mgmt cid Op.regWrite fun c _ =>
    let n := fieldBe c.payload 0 2
    if oddAddr c.payload n then d.answer cid St.malformed []
    else
      match writeLoop cid c.payload (n - c.regAt) c.regAt d with
      | (d, none) => d
      | (d, some st) =>
        let k := ((d.cmd cid).map (·.regAt)).getD 0
        d.answer cid st (be 2 k ++ zeros 2)

/-! ### One access on a path -/

/-- REG_WRITE_PLAIN: one masked write; it waits while its function is under reset, and an error case
leaves the register unchanged. -/
def doRegWritePlain (path : ReqPath) (addr : Nat) (mask value : Word) (d : Dev) : Dev :=
  if addr % 4 ≠ 0 || d.regWaits addr then d else (d.writeEntry path addr mask value).getD d

/-- LO_LATCH_READ: a read of a register named _LO, or of PTP_NS. -/
def doLoLatchRead (path : ReqPath) (addr : Nat) (d : Dev) : Dev :=
  if d.regWaits addr then d else d.latchPairs path addr

/-- The RC registers. -/
def isRc (a : Nat) : Bool := isPoolFree a || a == 0x20014 || a == 0x20024 || (inSw a && swOff a == 0xB04)

/-- RC_CLEAR_READ: a read of an RC register. -/
def doRcClearRead (path : ReqPath) (addr : Nat) (d : Dev) : Dev :=
  if !isRc addr || d.regWaits addr then d else d.readEffect path addr

/-- WINDOW_SELECT_WRITE: a write of a latching window's select register. -/
def doWindowSelectWrite (path : ReqPath) (addr : Nat) (value : Word) (d : Dev) : Dev :=
  if (windowAt addr).isNone || d.regWaits addr then d
  else (d.writeEntry path addr 0xFFFFFFFF value).getD d

end Sys2Proof.Machine
end

