-- ==== Sys2Proof/Machine/Exec.lean ====
section
/-!
DEFINITION. The meaning of each command: one definition per row of the table, in the table's order,
each over the operation of its chapter's file. No command stops: one that the drive's state does not
allow (a timer that is not running, a step that is not due) leaves the drive as it is.
-/
namespace Sys2Proof.Machine

/-- What a command answers. -/
abbrev Out := Host.Outcome State Fault Refusal

/-- The command's effect on the drive; the queue stays as it is. -/
def State.act (s : State) (f : Dev → Dev) : Out := .next { s with dev := f s.dev }

/-- The effect of a command that only a running drive carries out: before a start, and from power-fail
until the next start, nothing happens (R210, R439, R515). -/
def State.live (s : State) (f : Dev → Dev) : Out := s.act fun d => if d.alive then f d else d

/-- FRAME_RECEIVE (R28). -/
def execFrameReceive (p : PortId) (f : Frame) (s : State) : Out :=
  s.live (doFrameReceive p f)

/-- PAUSE_REPEAT_TIMER (R43). -/
def execPauseRepeatTimer (p : PortId) (s : State) : Out :=
  s.live (doPauseRepeatTimer p)

/-- PAUSE_WATCHDOG_FIRE (R45). -/
def execPauseWatchdogFire (p : PortId) (cls : Option (Fin 8)) (ms : Nat) (s : State) : Out :=
  s.live (doPauseWatchdogFire p cls ms)

/-- PAUSE_HOLDOFF_END (R47). -/
def execPauseHoldoffEnd (p : PortId) (s : State) : Out :=
  s.live (doPauseHoldoffEnd p)

/-- OWN_PAUSE_WATCHDOG (R48). -/
def execOwnPauseWatchdog (p : PortId) (ms : Nat) (s : State) : Out :=
  s.live (doOwnPauseWatchdog p ms)

/-- FRAME_TRANSMIT (R50). -/
def execFrameTransmit (p : PortId) (left : List Nat) (s : State) : Out :=
  s.live fun d => (doFrameTransmit p left d).beginDue

/-- GATE_HELD_DROP (R58). -/
def execGateHeldDrop (p : PortId) (cls : Fin 8) (s : State) : Out :=
  s.live (doGateHeldDrop p cls)

/-- TX_UNDERRUN (R60). -/
def execTxUnderrun (p : PortId) (left : List Nat) (s : State) : Out :=
  s.live (doTxUnderrun p left)

/-- CT_LEVEL_DECAY (R61). -/
def execCtLevelDecay (p : PortId) (cls : Fin 8) (s : State) : Out :=
  s.live (doCtLevelDecay p cls)

/-- GCL_SWAP_REQ (R54). -/
def execGclSwapReq (p : PortId) (s : State) : Out :=
  s.live (doGclSwapReq p)

/-- GCL_SWAP (R55). -/
def execGclSwap (p : PortId) (s : State) : Out :=
  s.live (doGclSwap p)

/-- GCL_ENTRY_EXPIRE (R57). -/
def execGclEntryExpire (p : PortId) (cycleEnd : Bool) (s : State) : Out :=
  s.live (doGclEntryExpire p cycleEnd)

/-- GCL_DATA_ACCESS (R56). -/
def execGclDataAccess (p : PortId) (path : ReqPath) (w : Option Word) (s : State) : Out :=
  s.live (doGclDataAccess p path w)

/-- RATE_STEP_DOWN (R62). -/
def execRateStepDown (p : PortId) (load : StepLoad) (s : State) : Out :=
  s.live (doRateStepDown p load.pct load.other)

/-- RATE_STEP_UP (R63). -/
def execRateStepUp (p : PortId) (load : StepLoad) (s : State) : Out :=
  s.live (doRateStepUp p load.pct load.other)

/-- LINK_CHANGE (R609). -/
def execLinkChange (p : PortId) (mode : BitVec 3) (lowAdv : Bool) (eeeAdv : Bool) (s : State) : Out :=
  s.live (doLinkChange p mode lowAdv eeeAdv)

/-- EEE_LPI_ENTER (R67). -/
def execEeeLpiEnter (p : PortId) (s : State) : Out :=
  s.live (doEeeLpiEnter p)

/-- PORT_ENABLE_WRITE (R609). -/
def execPortEnableWrite (p : PortId) (en : Bool) (s : State) : Out :=
  s.live (doPortEnableWrite p en)

/-- LOOP_SET (R584). -/
def execLoopSet (p : PortId) (mode : BitVec 2) (s : State) : Out :=
  s.live (doLoopSet p mode)

/-- LOOP_TIMEOUT (R585). -/
def execLoopTimeout (p : PortId) (s : State) : Out :=
  s.live (doLoopTimeout p)

/-- LBT_GO (R586). -/
def execLbtGo (p : PortId) (received : Nat) (bad : Nat) (s : State) : Out :=
  s.live (doLbtGo p received bad)

/-- FC_FILL (R75). -/
def execFcFill (s : State) : Out :=
  s.live (doFcFill)

/-- FC_FLUSH (R76). -/
def execFcFlush (s : State) : Out :=
  s.live (doFcFlush)

/-- FRAGMENT_COMMIT (R11). -/
def execFragmentCommit (at_ : CommitAt) (s : State) : Out :=
  s.live (doFragmentCommit at_.port at_.sinceUs)

/-- REORDER_TIMEOUT (R90). -/
def execReorderTimeout (sid : Nat) (seq : Nat) (s : State) : Out :=
  s.live (doReorderTimeout sid seq)

/-- REASSEMBLY_TIMEOUT (R91). -/
def execReassemblyTimeout (sid : Nat) (seq : Nat) (s : State) : Out :=
  s.live (doReassemblyTimeout sid seq)

/-- ACK_DELAY_TIMER (R97). -/
def execAckDelayTimer (sid : Nat) (s : State) : Out :=
  s.live (doAckDelayTimer sid)

/-- PART_ACK_TIMER (R97). -/
def execPartAckTimer (sid : Nat) (seq : Nat) (s : State) : Out :=
  s.live (doPartAckTimer sid seq)

/-- ACK (R98). -/
def execAck (sid : Nat) (s : State) : Out :=
  s.live (doAck sid)

/-- RTO_TIMER (R100). -/
def execRtoTimer (sid : Nat) (seq : Nat) (frag : FragAt) (s : State) : Out :=
  s.live (doRtoTimer sid seq frag.idx frag.old)

/-- UNDERRUN_RESEND (R101). -/
def execUnderrunResend (sid : Nat) (seq : Nat) (frag : FragAt) (s : State) : Out :=
  s.live (doUnderrunResend sid seq frag.idx frag.old)

/-- IDLE_TIMEOUT (R106). -/
def execIdleTimeout (sid : Nat) (s : State) : Out :=
  s.live fun d => (doIdleTimeout sid d).beginDue

/-- SESSION_OPEN_PHASE1 (R109). -/
def execSessionOpenPhase1 (sid : Nat) (draw : OpenDraw) (s : State) : Out :=
  s.live (doSessionOpenPhase1 sid draw)

/-- SESSION_OPEN_PHASE3 (R108). -/
def execSessionOpenPhase3 (sid : Nat) (v : ChainVerdict) (s : State) : Out :=
  s.live (doSessionOpenPhase3 sid v)

/-- SESSION_OPEN_TIMEOUT (R110). -/
def execSessionOpenTimeout (sid : Nat) (s : State) : Out :=
  s.live (doSessionOpenTimeout sid)

/-- SESSION_CLOSE (R107). -/
def execSessionClose (cid : Nat) (s : State) : Out :=
  s.live (doSessionClose cid)

/-- LINGER_TIMEOUT (R107). -/
def execLingerTimeout (sid : Nat) (s : State) : Out :=
  s.live (doLingerTimeout sid)

/-- REKEY (R115). -/
def execRekey (cid : Nat) (s : State) : Out :=
  s.live (doRekey cid)

/-- REKEY_ANSWER (R116). -/
def execRekeyAnswer (cid : Nat) (s : State) : Out :=
  s.live (doRekeyAnswer cid)

/-- QUEUE_RESET (R121). -/
def execQueueReset (cid : Nat) (s : State) : Out :=
  s.live (doQueueReset cid)

/-- ABORT_MARKER_ARRIVE (R202). -/
def execAbortMarkerArrive (sw : Fin 16) (cid : Nat) (s : State) : Out :=
  s.live (doAbortMarkerArrive sw cid)

/-- QUEUE_RESET_ANSWER (R204). -/
def execQueueResetAnswer (cid : Nat) (s : State) : Out :=
  s.live (doQueueResetAnswer cid)

/-- GET (R148). -/
def execGet (cid : Nat) (s : State) : Out :=
  s.live (doGet cid)

/-- GET_RANGE (R149). -/
def execGetRange (cid : Nat) (s : State) : Out :=
  s.live (doGetRange cid)

/-- HEAD (R148). -/
def execHead (cid : Nat) (s : State) : Out :=
  s.live (doHead cid)

/-- PUT (R151). -/
def execPut (sw : Fin 16) (cid : Nat) (al : Alloc) (s : State) : Out :=
  s.live (doPut sw cid al)

/-- PUT_STREAM (R152). -/
def execPutStream (sw : Fin 16) (cid : Nat) (al : Alloc) (s : State) : Out :=
  s.live (doPutStream sw cid al)

/-- STREAM_TIMEOUT (R155). -/
def execStreamTimeout (sid : Nat) (i : Nat) (s : State) : Out :=
  s.live (doStreamTimeout sid i)

/-- WRITE_RANGE (R157). -/
def execWriteRange (sw : Fin 16) (cid : Nat) (al : Alloc) (mergeOk : Bool) (s : State) : Out :=
  s.live (doWriteRange sw cid al mergeOk)

/-- APPEND (R158). -/
def execAppend (sw : Fin 16) (cid : Nat) (al : Alloc) (mergeOk : Bool) (s : State) : Out :=
  s.live (doAppend sw cid al mergeOk)

/-- CAS_PUT (R151). -/
def execCasPut (sw : Fin 16) (cid : Nat) (al : Alloc) (s : State) : Out :=
  s.live (doCasPut sw cid al)

/-- DELETE (R161). -/
def execDelete (sw : Fin 16) (cid : Nat) (al : Alloc) (s : State) : Out :=
  s.live (doDelete sw cid al)

/-- DISCARD_SECURE (R162). -/
def execDiscardSecure (sw : Fin 16) (cid : Nat) (al : Alloc) (s : State) : Out :=
  s.live (doDiscardSecure sw cid al)

/-- SECURE_DISCARD_OVERWRITE (R312). -/
def execSecureDiscardOverwrite (sw : Fin 16) (cid : Nat) (s : State) : Out :=
  s.live (doSecureDiscardOverwrite sw cid)

/-- SECURE_DISCARD_COMPLETE (R312). -/
def execSecureDiscardComplete (cid : Nat) (s : State) : Out :=
  s.live (doSecureDiscardComplete cid)

/-- HOLD (R163). -/
def execHold (sw : Fin 16) (cid : Nat) (al : Alloc) (s : State) : Out :=
  s.live (doHold sw cid al)

/-- LIST (R164). -/
def execList (cid : Nat) (s : State) : Out :=
  s.live (doList cid)

/-- NOTIFY_DONE (R404). -/
def execNotifyDone (cid : Nat) (s : State) : Out :=
  s.live (doNotifyDone cid)

/-- REG_READ (R167). -/
def execRegRead (cid : Nat) (s : State) : Out :=
  s.live (doRegRead cid)

/-- REG_WRITE (R167). -/
def execRegWrite (cid : Nat) (s : State) : Out :=
  s.live (doRegWrite cid)

/-- STATUS (R131). -/
def execStatus (cid : Nat) (s : State) : Out :=
  s.live (doStatus cid)

/-- RECORD_READ (R510). -/
def execRecordRead (cid : Nat) (s : State) : Out :=
  s.live (doRecordRead cid)

/-- TIME_SET (R492). -/
def execTimeSet (cid : Nat) (s : State) : Out :=
  s.live (doTimeSet cid)

/-- FUNCTION_RESET (R168). -/
def execFunctionReset (cid : Nat) (s : State) : Out :=
  s.live (doFunctionReset cid)

/-- SWATH_TEST (R579). -/
def execSwathTest (cid : Nat) (s : State) : Out :=
  s.live (doSwathTest cid)

/-- EVACUATE (R271). -/
def execEvacuate (cid : Nat) (s : State) : Out :=
  s.live (doEvacuate cid)

/-- SANITIZE (R570). -/
def execSanitize (cid : Nat) (draw : EraseDraw) (s : State) : Out :=
  s.live (doSanitize cid draw)

/-- FORMAT (R576). -/
def execFormat (cid : Nat) (draw : EraseDraw) (s : State) : Out :=
  s.live (doFormat cid draw)

/-- PROGRESS (R565). -/
def execProgress (cid : Nat) (s : State) : Out :=
  s.live (doProgress cid)

/-- SETTINGS_WRITE (R551). -/
def execSettingsWrite (cid : Nat) (sigOk : Bool) (s : State) : Out :=
  s.live (doSettingsWrite cid sigOk)

/-- IMAGE_BEGIN (R526). -/
def execImageBegin (cid : Nat) (v : HdrVerdict) (imageId : BitVec 32) (s : State) : Out :=
  s.live (doImageBegin cid v imageId)

/-- IMAGE_DATA (R529). -/
def execImageData (cid : Nat) (digestOk : Bool) (s : State) : Out :=
  s.live (doImageData cid digestOk)

/-- IMAGE_STORE_COMPLETE (R530). -/
def execImageStoreComplete (ok : Bool) (s : State) : Out :=
  s.live (doImageStoreComplete ok)

/-- IMAGE_TRANSFER_TIMEOUT (R531). -/
def execImageTransferTimeout (s : State) : Out :=
  s.live (doImageTransferTimeout)

/-- IMAGE_ACTIVATE (R537). -/
def execImageActivate (cid : Nat) (s : State) : Out :=
  s.live (doImageActivate cid)

/-- ATTEST (R560). -/
def execAttest (cid : Nat) (sig : List Byte) (s : State) : Out :=
  s.live (doAttest cid sig)

/-- TAKE_OWNERSHIP (R561). -/
def execTakeOwnership (cid : Nat) (proofOk : Bool) (s : State) : Out :=
  s.live (doTakeOwnership cid proofOk)

/-- DISPATCH_ADMIT (R176). -/
def execDispatchAdmit (s : State) : Out :=
  s.live (doDispatchAdmit)

/-- WAIT_RES_TIMEOUT (R176). -/
def execWaitResTimeout (cid : Nat) (s : State) : Out :=
  s.live (doWaitResTimeout cid)

/-- PATTERN_LANE_START (R226). -/
def execPatternLaneStart (s : State) : Out :=
  s.live (doPatternLaneStart)

/-- PATTERN_RESULT (R231). -/
def execPatternResult (lane : Fin 16) (s : State) : Out :=
  s.live (doPatternResult lane)

/-- HAZARD_ARRIVE (R180). -/
def execHazardArrive (sw : Fin 16) (s : State) : Out :=
  s.live (doHazardArrive sw)

/-- CHAIN_ELIGIBLE (R181). -/
def execChainEligible (sw : Fin 16) (cid : Nat) (recOk : ChainRead) (s : State) : Out :=
  s.live (doChainRead sw cid recOk)

/-- QPRIO_AGE (R234). -/
def execQprioAge (sw : Fin 16) (cid : Nat) (s : State) : Out :=
  s.live (doQprioAge sw cid)

/-- BUFFER_UNIT_TAKE (R186). -/
def execBufferUnitTake (sw : Fin 16) (cid : Nat) (unit : Nat) (s : State) : Out :=
  s.live (doBufferUnitTake sw cid unit)

/-- WRITE_COMPLETE (R184). -/
def execWriteComplete (sw : Fin 16) (cid : Nat) (al : Alloc) (part : Option BeatWrite) (s : State) : Out :=
  s.live (doWriteSwitch sw cid al part)

/-- RANGE_PIECE_SWITCH (R190). -/
def execRangePieceSwitch (sw : Fin 16) (cid : Nat) (al : Alloc) (mergeOk : Bool) (s : State) : Out :=
  s.live (doRangePieceSwitch sw cid al mergeOk)

/-- PAIR_READY_REPORT (R192). -/
def execPairReadyReport (sw : Fin 16) (cid : Nat) (s : State) : Out :=
  s.live (doPairReadyReport sw cid)

/-- PAIR_ONE_COPY_SWITCH (R193). -/
def execPairOneCopySwitch (sw : Fin 16) (cid : Nat) (al : Alloc) (s : State) : Out :=
  s.live (doPairOneCopySwitch sw cid al)

/-- PAIR_CATCHUP (R269). -/
def execPairCatchup (sw : Fin 16) (space : Nat) (key : List Byte) (al : Alloc) (s : State) : Out :=
  s.live (doPairCatchup sw space key al)

/-- DEF_CLEAR_DELIVERED (R199). -/
def execDefClearDelivered (s : State) : Out :=
  s.live (doDefClearDelivered)

/-- POWER_FAIL (R439). -/
def execPowerFail (cause : PfCause) (s : State) : Out :=
  s.live (doPowerFail cause)

/-- FLUSH_COMPLETE (R440). -/
def execFlushComplete (durUs : Nat) (s : State) : Out :=
  s.act (doFlushComplete durUs)

/-- SWATH_READY (R517). -/
def execSwathReady (sw : Fin 16) (s : State) : Out :=
  s.live (doSwathReady sw)

/-- TC_INVALIDATE (R222). -/
def execTcInvalidate (frm : Fin 4096) (s : State) : Out :=
  s.live (doTcInvalidate frm)

/-- TC_WRITE (R222). -/
def execTcWrite (frm : Fin 4096) (s : State) : Out :=
  s.live (doTcWrite frm)

/-- TC_VALIDATE (R222). -/
def execTcValidate (frm : Fin 4096) (s : State) : Out :=
  s.live (doTcValidate frm)

/-- TC_SHIFT_UP (R222). -/
def execTcShiftUp (frm : Fin 4096) (upTo : Fin 4096) (s : State) : Out :=
  s.live (doTcShiftUp frm upTo)

/-- TC_SHIFT_DOWN (R222). -/
def execTcShiftDown (frm : Fin 4096) (upTo : Fin 4096) (s : State) : Out :=
  s.live (doTcShiftDown frm upTo)

/-- TC_SHIFT_MOVE (R225). -/
def execTcShiftMove (s : State) : Out :=
  s.live (doTcShiftMove)

/-- TC_CMD_INVALID (R223). -/
def execTcCmdInvalid (op : BitVec 3) (frm : Fin 4096) (upTo : Fin 4096) (s : State) : Out :=
  s.live (doTcCmdInvalid op.toNat frm upTo)

/-- TC_DATA_ACCESS (R603). -/
def execTcDataAccess (path : ReqPath) (w : Option Word) (s : State) : Out :=
  s.live (doTcDataAccess path w)

/-- PA_DATA_ACCESS (R240). -/
def execPaDataAccess (path : ReqPath) (w : Option Word) (s : State) : Out :=
  s.live (doPaDataAccess path w)

/-- PA_SWAP_REQUEST (R238). -/
def execPaSwapRequest (s : State) : Out :=
  s.live (doPaSwapRequest)

/-- PA_SWAP_TAKE_EFFECT (R239). -/
def execPaSwapTakeEffect (s : State) : Out :=
  s.live (doPaSwapTakeEffect)

/-- PA_TEST_GO (R241). -/
def execPaTestGo (s : State) : Out :=
  s.live (doPaTestGo)

/-- PA_TEST_DONE (R241). -/
def execPaTestDone (s : State) : Out :=
  s.live (doPaTestDone)

/-- PA_TKEY_WRITE (R241). -/
def execPaTkeyWrite (w : Word) (s : State) : Out :=
  s.live (doPaTkeyWrite w)

/-- PA_TEST_LEN_WRITE (R241). -/
def execPaTestLenWrite (len : BitVec 10) (s : State) : Out :=
  s.live (doPaTestLenWrite len.toNat)

/-- HOLD_INPUT_CHANGE (R465). -/
def execHoldInputChange (inp : HoldIn) (active : Bool) (s : State) : Out :=
  s.act (doHoldInputChange inp active)

/-- SLOT_COPY_PASS (R272). -/
def execSlotCopyPass (s : State) : Out :=
  s.live (doSlotCopyPass)

/-- SLOT_CUTOVER (R273). -/
def execSlotCutover (al : List Alloc) (s : State) : Out :=
  s.live (doSlotCutover al)

/-- EVACUATION_END (R271). -/
def execEvacuationEnd (s : State) : Out :=
  s.live (doEvacuationEnd)

/-- CKPT_PASS_START (R264). -/
def execCkptPassStart (sw : Fin 16) (s : State) : Out :=
  s.live (doCkptPassStart sw)

/-- CKPT_FORCE (R264). -/
def execCkptForce (sw : Fin 16) (s : State) : Out :=
  s.live (doCkptForce sw)

/-- CKPT_PASS_END (R265). -/
def execCkptPassEnd (pass : PassEnd) (s : State) : Out :=
  s.live (doCkptPassEnd pass.sw pass.lines)

/-- REBUILD_END (R267). -/
def execRebuildEnd (sw : Fin 16) (s : State) : Out :=
  s.live (doRebuildEnd sw)

/-- EXTENT_JOIN (R257). -/
def execExtentJoin (sw : Fin 16) (space : Nat) (key : List Byte) (al : Alloc) (badSheaf : Option Nat) (s : State) : Out :=
  s.live (doExtentJoin sw space key al badSheaf)

/-- OVERFLOW_REFILL (R255). -/
def execOverflowRefill (sw : Fin 16) (group : Nat) (s : State) : Out :=
  s.live (doOverflowRefill sw group)

/-- VC_FLUSH (R260). -/
def execVcFlush (sw : Fin 16) (s : State) : Out :=
  s.live (doVcFlush sw)

/-- CODEWORD_READ (R300). -/
def execCodewordRead (sw : Fin 16) (unit : Nat) (res : Decoded) (host : Bool) (die : DieAt)
    (busy : Nat) (s : State) : Out :=
  s.live (doCodewordRead sw unit res host die.die busy die.ask)

/-- PROGRAM_COMPLETE (R286). -/
def execProgramComplete (sw : Fin 16) (by_ : Mover) (sb : Nat) (die : ProgAt) (moves : List UnitMove)
    (s : State) : Out :=
  s.live (doDrainComplete sw by_ sb die.die moves die.ask die.lines)

/-- PROGRAM_FAIL (R303). -/
def execProgramFail (sw : Fin 16) (by_ : Mover) (sb : Nat) (die : Fin 32) (plane : Fin 4) (dest : Nat) (moves : List UnitMove) (s : State) : Out :=
  s.live (doProgramFail sw by_ sb die plane dest moves)

/-- ERASE_COMPLETE (R295), or an erase of SANITIZE (R573). -/
def execEraseComplete (sw : Fin 16) (sb : Nat) (die : DieAt) (s : State) : Out :=
  s.live fun d =>
    if (d.sw sw).wipe.isSome then doWipeComplete sw sb die.die die.ask d else doEraseComplete sw sb die.die die.ask d

/-- ERASE_FAIL (R306), or one of SANITIZE (R573). -/
def execEraseFail (sw : Fin 16) (sb : Nat) (die : Fin 32) (plane : Fin 4) (s : State) : Out :=
  s.live fun d => if (d.sw sw).wipe.isSome then doWipeFail sw sb die plane d else doEraseFail sw sb die plane d

/-- OP_RESUME (R302). -/
def execOpResume (sw : Fin 16) (die : Fin 32) (s : State) : Out :=
  s.live (doOpResume sw die)

/-- DRAIN_START (R187). -/
def execDrainStart (sw : Fin 16) (s : State) : Out :=
  s.live (doDrainStart sw)

/-- PACK_PAGE_CLOSE (R289). -/
def execPackPageClose (sw : Fin 16) (page : Nat) (s : State) : Out :=
  s.live (doPackPageClose sw page)

/-- TED_TRIGGER (R290). -/
def execTedTrigger (sw : Fin 16) (byAge : Bool) (s : State) : Out :=
  s.live (doTedTrigger sw byAge)

/-- SHEAF_OPEN (R331). -/
def execSheafOpen (sw : Fin 16) (cid : Nat) (ok : Bool) (s : State) : Out :=
  s.live (doSheafOpen sw cid ok)

/-- KAT_GO (R339). -/
def execKatGo (sw : Fin 16) (pass : Bool) (s : State) : Out :=
  s.live (doKatGo sw pass)

/-- PATROL_TICK (R349). -/
def execPatrolTick (sw : Fin 16) (granule : Nat) (beat : Fin 16) (at_ : DramAt) (bytes : List Byte) (passEnd : Bool) (s : State) : Out :=
  s.live (doPatrolTick sw granule beat at_ bytes passEnd)

/-- UNMARK_WRITE (R352). -/
def execUnmarkWrite (sw : Fin 16) (s : State) : Out :=
  s.live (doUnmarkWrite sw)

/-- CL_CLEAR (R353). -/
def execClClear (sw : Fin 16) (s : State) : Out :=
  s.live (doClClear sw)

/-- CORE_TRAP (R355). -/
def execCoreTrap (core : CoreFault) (s : State) : Out :=
  s.live (doCoreTrap core)

/-- DMA_UE_HALT (R356). -/
def execDmaUeHalt (sw : Fin 16) (ch : Fin 8) (granule : Nat) (beat : Fin 16) (at_ : DramAt) (s : State) : Out :=
  s.live (doDmaUeHalt sw ch granule beat at_)

/-- DMA_RESTART (R356). -/
def execDmaRestart (sw : Fin 16) (mask : BitVec 8) (s : State) : Out :=
  s.live (doDmaRestart sw mask)

/-- PAGE_RETIRE (R362). -/
def execPageRetire (sw : Fin 16) (page : Nat) (s : State) : Out :=
  s.live (doPageRetire sw page)

/-- SRAM_UE (R368). -/
def execSramUe (k : SramKind) (s : State) : Out :=
  s.live (doSramUe k)

/-- TCAM_SWEEP (R369). -/
def execTcamSweep (entry : Fin 4096) (find : SweepFind) (s : State) : Out :=
  s.live (doTcamSweep entry find)

/-- START_GAP_MOVE (R374). -/
def execStartGapMove (sw : Fin 16) (gap : GapMove) (s : State) : Out :=
  s.live (doStartGapMove sw gap.region gap.line)

/-- WINDOW_VIOLATION (R380). -/
def execWindowViolation (master : Fin 148) (addr : BitVec 40) (right : Fin 3) (pc : BitVec 32) (s : State) : Out :=
  s.live (doWindowViolation master addr right pc)

/-- FREEZE_AUTO_RESET (R382). -/
def execFreezeAutoReset (f : Fn) (s : State) : Out :=
  s.live (doFreezeAutoReset f)

/-- IRQ_SOURCE_ASSERT (R391). -/
def execIrqSourceAssert (target : Fin 18) (src : Nat) (s : State) : Out :=
  s.live (doIrqSourceAssert target src)

/-- IRQ_CLAIM (R393). -/
def execIrqClaim (target : Fin 18) (m : IrqMaster) (masked : Bool) (s : State) : Out :=
  s.live (doIrqClaim target m masked)

/-- IRQ_DONE (R396). -/
def execIrqDone (target : Fin 18) (id : BitVec 10) (m : IrqMaster) (s : State) : Out :=
  s.live (doIrqDone target id m)

/-- NTF_SW_SET (R401). -/
def execNtfSwSet (k : Fin 2) (mask : Word) (s : State) : Out :=
  s.live (doNtfSwSet k mask)

/-- NTF_SW_CLR (R401). -/
def execNtfSwClr (k : Fin 2) (mask : Word) (s : State) : Out :=
  s.live (doNtfSwClr k mask)

/-- NOTIFY_CLAIM (R402). -/
def execNotifyClaim (s : State) : Out :=
  s.live (doNotifyClaim)

/-- NOTIFY_TIMEOUT (R405). -/
def execNotifyTimeout (src : Nat) (s : State) : Out :=
  s.live (doNotifyTimeout src)

/-- FUNCTION_RESET_COMPLETE (R406). -/
def execFunctionResetComplete (f : Fn) (us : Nat) (lost : ReplayLoss) (s : State) : Out :=
  s.live (doFunctionResetComplete f us lost)

/-- MAILBOX_TIMEOUT (R588). -/
def execMailboxTimeout (sw : Fin 16) (s : State) : Out :=
  s.live (doMailboxTimeout sw)

/-- POWER_GOOD_START (R515). -/
def execPowerGoodStart (i : StartIn) (s : State) : Out :=
  s.act (doPowerGoodStart i)

/-- LIVE_MOVE_MEADOW (R415). -/
def execLiveMoveMeadow (s : State) : Out :=
  s.live (doLiveMoveMeadow)

/-- LLDP_SEND_TIMER (R418). -/
def execLldpSendTimer (s : State) : Out :=
  s.live (doLldpSendTimer)

/-- LLDP_ALLOCATION (R419). -/
def execLldpAllocation (mw : Nat) (s : State) : Out :=
  s.live (doLldpAllocation mw)

/-- LLDP_ECHO (R419). -/
def execLldpEcho (s : State) : Out :=
  s.live (doLldpEcho)

/-- POWER_LOOP_TICK (R426). -/
def execPowerLoopTick (drawMw : Nat) (s : State) : Out :=
  s.live (doPowerLoopTick drawMw)

/-- DROOP_TRIP (R428). -/
def execDroopTrip (isl : Fin 66) (s : State) : Out :=
  s.live (doDroopTrip isl)

/-- DROOP_RECOVER (R428). -/
def execDroopRecover (isl : Fin 66) (s : State) : Out :=
  s.live (doDroopRecover isl)

/-- DROOP_MS_REPORT (R429). -/
def execDroopMsReport (s : State) : Out :=
  s.live (doDroopMsReport)

/-- THERMAL_WARNING (R432). -/
def execThermalWarning (sensor : Fin 50) (deciC : Int) (s : State) : Out :=
  s.live (doThermalWarning sensor deciC)

/-- THERMAL_LIMIT (R432). -/
def execThermalLimit (sensor : Fin 50) (deciC : Int) (s : State) : Out :=
  s.live (doThermalLimit sensor deciC)

/-- THERMAL_LEVEL_TICK (R432). -/
def execThermalLevelTick (reading : List (Nat × Int)) (s : State) : Out :=
  s.live (doThermalLevelTick reading)

/-- THERMAL_RESTART (R433). -/
def execThermalRestart (i : StartIn) (reading : List (Nat × Int)) (s : State) : Out :=
  s.act (doThermalRestart i reading)

/-- BANK_CHARGED (R435). -/
def execBankCharged (s : State) : Out :=
  s.live (doBankCharged)

/-- BANK_TEST (R436). -/
def execBankTest (mj : Nat) (s : State) : Out :=
  s.live (doBankTest mj)

/-- V12_OVERVOLTAGE (R451). -/
def execV12Overvoltage (s : State) : Out :=
  s.live (doV12Overvoltage)

/-- RST_IN_ACTIVATE (R466). -/
def execRstInActivate (s : State) : Out :=
  s.act (doRstInActivate)

/-- RST_IN_RELEASE (R466). -/
def execRstInRelease (i : StartIn) (s : State) : Out :=
  s.act (doRstInRelease i)

/-- INPUT_STUCK (R467). -/
def execInputStuck (inp : Discrete) (i : StartIn) (s : State) : Out :=
  s.act (doInputStuck inp i)

/-- INPUT_SUSPEND_END (R468). -/
def execInputSuspendEnd (inp : Discrete) (s : State) : Out :=
  s.act (doInputSuspendEnd inp)

/-- CHAIN_LOCK_CHANGE (R460). -/
def execChainLockChange (up : Bool) (rx : ChainRx) (s : State) : Out :=
  s.live (doChainLockChange up rx)

/-- CHAIN_PRESENCE_CHANGE (R461). -/
def execChainPresenceChange (up : Bool) (present : Bool) (s : State) : Out :=
  s.act (doChainPresenceChange up present)

/-- LED_ACT_TIMER (R474). -/
def execLedActTimer (s : State) : Out :=
  s.live (doLedActTimer)

/-- CAL_JOURNAL_SAVE (R486). -/
def execCalJournalSave (s : State) : Out :=
  s.live (doCalJournalSave)

/-- CELL_LOW_DETECT (R607). -/
def execCellLowDetect (days : Nat) (s : State) : Out :=
  s.live (doCellLowDetect days)

/-- TRUST_UNCERT_EXCEEDED (R489). -/
def execTrustUncertExceeded (s : State) : Out :=
  s.live (doTrustUncertExceeded)

/-- PTP_ANNOUNCE (R494). -/
def execPtpAnnounce (p : PortId) (an : Announce) (s : State) : Out :=
  s.live (doPtpAnnounce p an)

/-- PTP_SYNC (R495). -/
def execPtpSync (p : PortId) (offsetNs : Int) (s : State) : Out :=
  s.live (doPtpSync p offsetNs)

/-- SLEW_END (R497). -/
def execSlewEnd (s : State) : Out :=
  s.live (doSlewEnd)

/-- PTP_SYNC_LOSS (R498). -/
def execPtpSyncLoss (s : State) : Out :=
  s.live (doPtpSyncLoss)

/-- ANNOUNCE_TIMEOUT (R610). -/
def execAnnounceTimeout (s : State) : Out :=
  s.live (doAnnounceTimeout)

/-- LEAP_SECOND (R499). -/
def execLeapSecond (s : State) : Out :=
  s.live (doLeapSecond)

/-- EVENT_INTAKE (R502). -/
def execEventIntake (s : State) : Out :=
  s.live (doEventIntake)

/-- MEASURE_SAMPLE (R501). -/
def execMeasureSample (mw : Nat) (ctrl : Int) (nand : Int) (pkg : Nat) (s : State) : Out :=
  s.live (doMeasureSample mw ctrl nand pkg)

/-- INTERVAL_CLOSE (R504). -/
def execIntervalClose (s : State) : Out :=
  s.live (doIntervalClose)

/-- CLOSE_NOW (R504). -/
def execCloseNow (s : State) : Out :=
  s.live (doCloseNow)

/-- SHUTDOWN (R520). -/
def execShutdown (s : State) : Out :=
  s.live (doShutdown)

/-- SHUTDOWN_COMPLETE (R521). -/
def execShutdownComplete (s : State) : Out :=
  s.live (doShutdownComplete)

/-- CONFIRM (R544). -/
def execConfirm (s : State) : Out :=
  s.live (doConfirm)

/-- TRIAL_CONFIRM_TIMER (R544). -/
def execTrialConfirmTimer (s : State) : Out :=
  s.live (doTrialConfirmTimer)

/-- TRIAL_WATCHDOG (R542). -/
def execTrialWatchdog (i : StartIn) (s : State) : Out :=
  s.live (doTrialWatchdog i)

/-- SETTINGS_GUARD_TIMEOUT (R556). -/
def execSettingsGuardTimeout (s : State) : Out :=
  s.live (doSettingsGuardTimeout)

/-- MIGRATION_COMPLETE (R548). -/
def execMigrationComplete (s : State) : Out :=
  s.live (doMigrationComplete)

/-- ACTIVATION_WHEN (R538). -/
def execActivationWhen (s : State) : Out :=
  s.live (doActivationWhen)

/-- IMG_HDR (R525). -/
def execImgHdr (f : ChainFrame) (v : HdrVerdict) (s : State) : Out :=
  s.live (doImgHdr f v)

/-- IMG_DATA (R533). -/
def execImgData (f : ChainFrame) (digestOk : Bool) (s : State) : Out :=
  s.live (doImgData f digestOk)

/-- IMG_END (R532). -/
def execImgEnd (f : ChainFrame) (s : State) : Out :=
  s.live (doImgEnd f)

/-- REFUSE (R535). -/
def execRefuse (f : ChainFrame) (s : State) : Out :=
  s.live (doRefuse f)

/-- RESEND (R534). -/
def execResend (f : ChainFrame) (s : State) : Out :=
  s.live (doResend f)

/-- ACTIVATE (R540). -/
def execActivate (f : ChainFrame) (s : State) : Out :=
  s.live (doActivate f)

/-- INVENTORY (R536). -/
def execInventory (f : ChainFrame) (down : Bool) (s : State) : Out :=
  s.live (doInventory f down)

/-- INVENTORY_BEACON_TIMER (R536). -/
def execInventoryBeaconTimer (s : State) : Out :=
  s.live (doInventoryBeaconTimer)

/-- INVENTORY_STALE (R536). -/
def execInventoryStale (pos : Nat) (s : State) : Out :=
  s.live (doInventoryStale pos)

/-- ADMIN_JOB_END (R569). -/
def execAdminJobEnd (job : Nat) (target : Nat) (s : State) : Out :=
  s.live (doAdminJobEnd job target)

/-- SWATH_TEST_END (R583). -/
def execSwathTestEnd (sw : Fin 16) (faults : Nat) (addr : BitVec 32) (dev : BitVec 4) (kind : BitVec 4) (s : State) : Out :=
  s.live (doSwathTestEnd sw faults addr dev kind)

/-- REG_WRITE_PLAIN (R599). -/
def execRegWritePlain (path : ReqPath) (addr : BitVec 24) (mask : Word) (value : Word) (s : State) : Out :=
  s.live (doRegWritePlain path addr.toNat mask value)

/-- LO_LATCH_READ (R601). -/
def execLoLatchRead (path : ReqPath) (addr : BitVec 24) (s : State) : Out :=
  s.live (doLoLatchRead path addr.toNat)

/-- RC_CLEAR_READ (R600). -/
def execRcClearRead (path : ReqPath) (addr : BitVec 24) (s : State) : Out :=
  s.live (doRcClearRead path addr.toNat)

/-- WINDOW_SELECT_WRITE (R602). -/
def execWindowSelectWrite (path : ReqPath) (addr : BitVec 24) (value : Word) (s : State) : Out :=
  s.live (doWindowSelectWrite path addr.toNat value)

/-- PAUSE_QUANTA_EXPIRE (R44). -/
def execPauseQuantaExpire (p : PortId) (cls : Option (Fin 8)) (s : State) : Out :=
  s.live (doPauseQuantaExpire p cls)

/-- OWN_PAUSE_HOLDOFF_END (R48). -/
def execOwnPauseHoldoffEnd (p : PortId) (s : State) : Out :=
  s.live (doOwnPauseHoldoffEnd p)

/-- THERMAL_BELOW_LIMIT (R432). -/
def execThermalBelowLimit (deciC : Int) (s : State) : Out :=
  s.live (doThermalBelowLimit deciC)

/-- CELL_RESERVE_RECOVER (R607). -/
def execCellReserveRecover (days : Nat) (s : State) : Out :=
  s.live (doCellReserveRecover days)

/-- HOLD_APPLY_COMPLETE (R76). -/
def execHoldApplyComplete (inp : HoldIn) (s : State) : Out :=
  s.live (doHoldApplyComplete inp)

end Sys2Proof.Machine
end

