-- ==== Sys2Proof/Machine/Dispatch.lean ====
section
/-!
DEFINITION. The dispatch of commands to their meanings: one arm per constructor of `Instr`.
-/
namespace Sys2Proof.Machine

def exec (i : Instr) (s : State) : Host.Outcome State Fault Refusal :=
  match i with
  | .frameReceive p f => Sys2Proof.Machine.execFrameReceive p f s
  | .pauseRepeatTimer p => Sys2Proof.Machine.execPauseRepeatTimer p s
  | .pauseWatchdogFire p cls ms => Sys2Proof.Machine.execPauseWatchdogFire p cls ms s
  | .pauseHoldoffEnd p => Sys2Proof.Machine.execPauseHoldoffEnd p s
  | .ownPauseWatchdog p ms => Sys2Proof.Machine.execOwnPauseWatchdog p ms s
  | .frameTransmit p left => Sys2Proof.Machine.execFrameTransmit p left s
  | .gateHeldDrop p cls => Sys2Proof.Machine.execGateHeldDrop p cls s
  | .txUnderrun p left => Sys2Proof.Machine.execTxUnderrun p left s
  | .ctLevelDecay p cls => Sys2Proof.Machine.execCtLevelDecay p cls s
  | .gclSwapReq p => Sys2Proof.Machine.execGclSwapReq p s
  | .gclSwap p => Sys2Proof.Machine.execGclSwap p s
  | .gclEntryExpire p cycleEnd => Sys2Proof.Machine.execGclEntryExpire p cycleEnd s
  | .gclDataAccess p path w => Sys2Proof.Machine.execGclDataAccess p path w s
  | .rateStepDown p load => Sys2Proof.Machine.execRateStepDown p load s
  | .rateStepUp p load => Sys2Proof.Machine.execRateStepUp p load s
  | .linkChange p mode lowAdv eeeAdv => Sys2Proof.Machine.execLinkChange p mode lowAdv eeeAdv s
  | .eeeLpiEnter p => Sys2Proof.Machine.execEeeLpiEnter p s
  | .portEnableWrite p en => Sys2Proof.Machine.execPortEnableWrite p en s
  | .loopSet p mode => Sys2Proof.Machine.execLoopSet p mode s
  | .loopTimeout p => Sys2Proof.Machine.execLoopTimeout p s
  | .lbtGo p received bad => Sys2Proof.Machine.execLbtGo p received bad s
  | .fcFill => Sys2Proof.Machine.execFcFill s
  | .fcFlush => Sys2Proof.Machine.execFcFlush s
  | .fragmentCommit at_ => Sys2Proof.Machine.execFragmentCommit at_ s
  | .reorderTimeout sid seq => Sys2Proof.Machine.execReorderTimeout sid seq s
  | .reassemblyTimeout sid seq => Sys2Proof.Machine.execReassemblyTimeout sid seq s
  | .ackDelayTimer sid => Sys2Proof.Machine.execAckDelayTimer sid s
  | .partAckTimer sid seq => Sys2Proof.Machine.execPartAckTimer sid seq s
  | .ack sid => Sys2Proof.Machine.execAck sid s
  | .rtoTimer sid seq frag => Sys2Proof.Machine.execRtoTimer sid seq frag s
  | .underrunResend sid seq frag => Sys2Proof.Machine.execUnderrunResend sid seq frag s
  | .idleTimeout sid => Sys2Proof.Machine.execIdleTimeout sid s
  | .sessionOpenPhase1 sid draw => Sys2Proof.Machine.execSessionOpenPhase1 sid draw s
  | .sessionOpenPhase3 sid v => Sys2Proof.Machine.execSessionOpenPhase3 sid v s
  | .sessionOpenTimeout sid => Sys2Proof.Machine.execSessionOpenTimeout sid s
  | .sessionClose cid => Sys2Proof.Machine.execSessionClose cid s
  | .lingerTimeout sid => Sys2Proof.Machine.execLingerTimeout sid s
  | .rekey cid => Sys2Proof.Machine.execRekey cid s
  | .rekeyAnswer cid => Sys2Proof.Machine.execRekeyAnswer cid s
  | .queueReset cid => Sys2Proof.Machine.execQueueReset cid s
  | .abortMarkerArrive sw cid => Sys2Proof.Machine.execAbortMarkerArrive sw cid s
  | .queueResetAnswer cid => Sys2Proof.Machine.execQueueResetAnswer cid s
  | .get cid => Sys2Proof.Machine.execGet cid s
  | .getRange cid => Sys2Proof.Machine.execGetRange cid s
  | .head cid => Sys2Proof.Machine.execHead cid s
  | .put sw cid al => Sys2Proof.Machine.execPut sw cid al s
  | .putStream sw cid al => Sys2Proof.Machine.execPutStream sw cid al s
  | .streamTimeout sid k => Sys2Proof.Machine.execStreamTimeout sid k s
  | .writeRange sw cid al mergeOk => Sys2Proof.Machine.execWriteRange sw cid al mergeOk s
  | .append sw cid al mergeOk => Sys2Proof.Machine.execAppend sw cid al mergeOk s
  | .casPut sw cid al => Sys2Proof.Machine.execCasPut sw cid al s
  | .delete sw cid al => Sys2Proof.Machine.execDelete sw cid al s
  | .discardSecure sw cid al => Sys2Proof.Machine.execDiscardSecure sw cid al s
  | .secureDiscardOverwrite sw cid => Sys2Proof.Machine.execSecureDiscardOverwrite sw cid s
  | .secureDiscardComplete cid => Sys2Proof.Machine.execSecureDiscardComplete cid s
  | .hold sw cid al => Sys2Proof.Machine.execHold sw cid al s
  | .list cid => Sys2Proof.Machine.execList cid s
  | .notifyDone cid => Sys2Proof.Machine.execNotifyDone cid s
  | .regRead cid => Sys2Proof.Machine.execRegRead cid s
  | .regWrite cid => Sys2Proof.Machine.execRegWrite cid s
  | .status cid => Sys2Proof.Machine.execStatus cid s
  | .recordRead cid => Sys2Proof.Machine.execRecordRead cid s
  | .timeSet cid => Sys2Proof.Machine.execTimeSet cid s
  | .functionReset cid => Sys2Proof.Machine.execFunctionReset cid s
  | .swathTest cid => Sys2Proof.Machine.execSwathTest cid s
  | .evacuate cid => Sys2Proof.Machine.execEvacuate cid s
  | .sanitize cid draw => Sys2Proof.Machine.execSanitize cid draw s
  | .format cid draw => Sys2Proof.Machine.execFormat cid draw s
  | .progress cid => Sys2Proof.Machine.execProgress cid s
  | .settingsWrite cid sigOk => Sys2Proof.Machine.execSettingsWrite cid sigOk s
  | .imageBegin cid v imageId => Sys2Proof.Machine.execImageBegin cid v imageId s
  | .imageData cid digestOk => Sys2Proof.Machine.execImageData cid digestOk s
  | .imageStoreComplete ok => Sys2Proof.Machine.execImageStoreComplete ok s
  | .imageTransferTimeout => Sys2Proof.Machine.execImageTransferTimeout s
  | .imageActivate cid => Sys2Proof.Machine.execImageActivate cid s
  | .attest cid sig => Sys2Proof.Machine.execAttest cid sig s
  | .takeOwnership cid proofOk => Sys2Proof.Machine.execTakeOwnership cid proofOk s
  | .dispatchAdmit => Sys2Proof.Machine.execDispatchAdmit s
  | .waitResTimeout cid => Sys2Proof.Machine.execWaitResTimeout cid s
  | .patternLaneStart => Sys2Proof.Machine.execPatternLaneStart s
  | .patternResult lane => Sys2Proof.Machine.execPatternResult lane s
  | .hazardArrive sw => Sys2Proof.Machine.execHazardArrive sw s
  | .chainEligible sw cid recOk => Sys2Proof.Machine.execChainEligible sw cid recOk s
  | .qprioAge sw cid => Sys2Proof.Machine.execQprioAge sw cid s
  | .bufferUnitTake sw cid unit => Sys2Proof.Machine.execBufferUnitTake sw cid unit s
  | .writeComplete sw cid al part => Sys2Proof.Machine.execWriteComplete sw cid al part s
  | .rangePieceSwitch sw cid al mergeOk => Sys2Proof.Machine.execRangePieceSwitch sw cid al mergeOk s
  | .pairReadyReport sw cid => Sys2Proof.Machine.execPairReadyReport sw cid s
  | .pairOneCopySwitch sw cid al => Sys2Proof.Machine.execPairOneCopySwitch sw cid al s
  | .pairCatchup sw space key al => Sys2Proof.Machine.execPairCatchup sw space key al s
  | .defClearDelivered => Sys2Proof.Machine.execDefClearDelivered s
  | .powerFail cause => Sys2Proof.Machine.execPowerFail cause s
  | .flushComplete durUs => Sys2Proof.Machine.execFlushComplete durUs s
  | .swathReady sw => Sys2Proof.Machine.execSwathReady sw s
  | .tcInvalidate frm => Sys2Proof.Machine.execTcInvalidate frm s
  | .tcWrite frm => Sys2Proof.Machine.execTcWrite frm s
  | .tcValidate frm => Sys2Proof.Machine.execTcValidate frm s
  | .tcShiftUp frm upTo => Sys2Proof.Machine.execTcShiftUp frm upTo s
  | .tcShiftDown frm upTo => Sys2Proof.Machine.execTcShiftDown frm upTo s
  | .tcShiftMove => Sys2Proof.Machine.execTcShiftMove s
  | .tcCmdInvalid op frm upTo => Sys2Proof.Machine.execTcCmdInvalid op frm upTo s
  | .tcDataAccess path w => Sys2Proof.Machine.execTcDataAccess path w s
  | .paDataAccess path w => Sys2Proof.Machine.execPaDataAccess path w s
  | .paSwapRequest => Sys2Proof.Machine.execPaSwapRequest s
  | .paSwapTakeEffect => Sys2Proof.Machine.execPaSwapTakeEffect s
  | .paTestGo => Sys2Proof.Machine.execPaTestGo s
  | .paTestDone => Sys2Proof.Machine.execPaTestDone s
  | .paTkeyWrite w => Sys2Proof.Machine.execPaTkeyWrite w s
  | .paTestLenWrite len => Sys2Proof.Machine.execPaTestLenWrite len s
  | .holdInputChange inp active => Sys2Proof.Machine.execHoldInputChange inp active s
  | .slotCopyPass => Sys2Proof.Machine.execSlotCopyPass s
  | .slotCutover al => Sys2Proof.Machine.execSlotCutover al s
  | .evacuationEnd => Sys2Proof.Machine.execEvacuationEnd s
  | .ckptPassStart sw => Sys2Proof.Machine.execCkptPassStart sw s
  | .ckptForce sw => Sys2Proof.Machine.execCkptForce sw s
  | .ckptPassEnd pass => Sys2Proof.Machine.execCkptPassEnd pass s
  | .rebuildEnd sw => Sys2Proof.Machine.execRebuildEnd sw s
  | .extentJoin sw space key al badSheaf => Sys2Proof.Machine.execExtentJoin sw space key al badSheaf s
  | .overflowRefill sw group => Sys2Proof.Machine.execOverflowRefill sw group s
  | .vcFlush sw => Sys2Proof.Machine.execVcFlush sw s
  | .codewordRead sw unit res host die busy => Sys2Proof.Machine.execCodewordRead sw unit res host die busy s
  | .programComplete sw by_ sb die moves => Sys2Proof.Machine.execProgramComplete sw by_ sb die moves s
  | .programFail sw by_ sb die plane dest moves => Sys2Proof.Machine.execProgramFail sw by_ sb die plane dest moves s
  | .eraseComplete sw sb die => Sys2Proof.Machine.execEraseComplete sw sb die s
  | .eraseFail sw sb die plane => Sys2Proof.Machine.execEraseFail sw sb die plane s
  | .opResume sw die => Sys2Proof.Machine.execOpResume sw die s
  | .drainStart sw => Sys2Proof.Machine.execDrainStart sw s
  | .packPageClose sw page => Sys2Proof.Machine.execPackPageClose sw page s
  | .tedTrigger sw byAge => Sys2Proof.Machine.execTedTrigger sw byAge s
  | .sheafOpen sw cid ok => Sys2Proof.Machine.execSheafOpen sw cid ok s
  | .katGo sw pass => Sys2Proof.Machine.execKatGo sw pass s
  | .patrolTick sw granule beat at_ bytes passEnd => Sys2Proof.Machine.execPatrolTick sw granule beat at_ bytes passEnd s
  | .unmarkWrite sw => Sys2Proof.Machine.execUnmarkWrite sw s
  | .clClear sw => Sys2Proof.Machine.execClClear sw s
  | .coreTrap core => Sys2Proof.Machine.execCoreTrap core s
  | .dmaUeHalt sw ch granule beat at_ => Sys2Proof.Machine.execDmaUeHalt sw ch granule beat at_ s
  | .dmaRestart sw mask => Sys2Proof.Machine.execDmaRestart sw mask s
  | .pageRetire sw page => Sys2Proof.Machine.execPageRetire sw page s
  | .sramUe k => Sys2Proof.Machine.execSramUe k s
  | .tcamSweep entry find => Sys2Proof.Machine.execTcamSweep entry find s
  | .startGapMove sw gap => Sys2Proof.Machine.execStartGapMove sw gap s
  | .windowViolation master addr right pc => Sys2Proof.Machine.execWindowViolation master addr right pc s
  | .freezeAutoReset f => Sys2Proof.Machine.execFreezeAutoReset f s
  | .irqSourceAssert target src => Sys2Proof.Machine.execIrqSourceAssert target src s
  | .irqClaim target m masked => Sys2Proof.Machine.execIrqClaim target m masked s
  | .irqDone target id m => Sys2Proof.Machine.execIrqDone target id m s
  | .ntfSwSet k mask => Sys2Proof.Machine.execNtfSwSet k mask s
  | .ntfSwClr k mask => Sys2Proof.Machine.execNtfSwClr k mask s
  | .notifyClaim => Sys2Proof.Machine.execNotifyClaim s
  | .notifyTimeout src => Sys2Proof.Machine.execNotifyTimeout src s
  | .functionResetComplete f us lost => Sys2Proof.Machine.execFunctionResetComplete f us lost s
  | .mailboxTimeout sw => Sys2Proof.Machine.execMailboxTimeout sw s
  | .powerGoodStart k => Sys2Proof.Machine.execPowerGoodStart k s
  | .liveMoveMeadow => Sys2Proof.Machine.execLiveMoveMeadow s
  | .lldpSendTimer => Sys2Proof.Machine.execLldpSendTimer s
  | .lldpAllocation mw => Sys2Proof.Machine.execLldpAllocation mw s
  | .lldpEcho => Sys2Proof.Machine.execLldpEcho s
  | .powerLoopTick drawMw => Sys2Proof.Machine.execPowerLoopTick drawMw s
  | .droopTrip isl => Sys2Proof.Machine.execDroopTrip isl s
  | .droopRecover isl => Sys2Proof.Machine.execDroopRecover isl s
  | .droopMsReport => Sys2Proof.Machine.execDroopMsReport s
  | .thermalWarning sensor deciC => Sys2Proof.Machine.execThermalWarning sensor deciC s
  | .thermalLimit sensor deciC => Sys2Proof.Machine.execThermalLimit sensor deciC s
  | .thermalLevelTick reading => Sys2Proof.Machine.execThermalLevelTick reading s
  | .thermalRestart k reading => Sys2Proof.Machine.execThermalRestart k reading s
  | .bankCharged => Sys2Proof.Machine.execBankCharged s
  | .bankTest mj => Sys2Proof.Machine.execBankTest mj s
  | .v12Overvoltage => Sys2Proof.Machine.execV12Overvoltage s
  | .rstInActivate => Sys2Proof.Machine.execRstInActivate s
  | .rstInRelease k => Sys2Proof.Machine.execRstInRelease k s
  | .inputStuck inp k => Sys2Proof.Machine.execInputStuck inp k s
  | .inputSuspendEnd inp => Sys2Proof.Machine.execInputSuspendEnd inp s
  | .chainLockChange up rx => Sys2Proof.Machine.execChainLockChange up rx s
  | .chainPresenceChange up present => Sys2Proof.Machine.execChainPresenceChange up present s
  | .ledActTimer => Sys2Proof.Machine.execLedActTimer s
  | .calJournalSave => Sys2Proof.Machine.execCalJournalSave s
  | .cellLowDetect days => Sys2Proof.Machine.execCellLowDetect days s
  | .trustUncertExceeded => Sys2Proof.Machine.execTrustUncertExceeded s
  | .ptpAnnounce p an => Sys2Proof.Machine.execPtpAnnounce p an s
  | .ptpSync p offsetNs => Sys2Proof.Machine.execPtpSync p offsetNs s
  | .slewEnd => Sys2Proof.Machine.execSlewEnd s
  | .ptpSyncLoss => Sys2Proof.Machine.execPtpSyncLoss s
  | .announceTimeout => Sys2Proof.Machine.execAnnounceTimeout s
  | .leapSecond => Sys2Proof.Machine.execLeapSecond s
  | .eventIntake => Sys2Proof.Machine.execEventIntake s
  | .measureSample mw ctrl nand pkg => Sys2Proof.Machine.execMeasureSample mw ctrl nand pkg s
  | .intervalClose => Sys2Proof.Machine.execIntervalClose s
  | .closeNow => Sys2Proof.Machine.execCloseNow s
  | .shutdown => Sys2Proof.Machine.execShutdown s
  | .shutdownComplete => Sys2Proof.Machine.execShutdownComplete s
  | .confirm => Sys2Proof.Machine.execConfirm s
  | .trialConfirmTimer => Sys2Proof.Machine.execTrialConfirmTimer s
  | .trialWatchdog k => Sys2Proof.Machine.execTrialWatchdog k s
  | .settingsGuardTimeout => Sys2Proof.Machine.execSettingsGuardTimeout s
  | .migrationComplete => Sys2Proof.Machine.execMigrationComplete s
  | .activationWhen => Sys2Proof.Machine.execActivationWhen s
  | .imgHdr f v => Sys2Proof.Machine.execImgHdr f v s
  | .imgData f digestOk => Sys2Proof.Machine.execImgData f digestOk s
  | .imgEnd f => Sys2Proof.Machine.execImgEnd f s
  | .refuse f => Sys2Proof.Machine.execRefuse f s
  | .resend f => Sys2Proof.Machine.execResend f s
  | .activate f => Sys2Proof.Machine.execActivate f s
  | .inventory f down => Sys2Proof.Machine.execInventory f down s
  | .inventoryBeaconTimer => Sys2Proof.Machine.execInventoryBeaconTimer s
  | .inventoryStale pos => Sys2Proof.Machine.execInventoryStale pos s
  | .adminJobEnd job target => Sys2Proof.Machine.execAdminJobEnd job target s
  | .swathTestEnd sw faults addr dev kind => Sys2Proof.Machine.execSwathTestEnd sw faults addr dev kind s
  | .regWritePlain path addr mask value => Sys2Proof.Machine.execRegWritePlain path addr mask value s
  | .loLatchRead path addr => Sys2Proof.Machine.execLoLatchRead path addr s
  | .rcClearRead path addr => Sys2Proof.Machine.execRcClearRead path addr s
  | .windowSelectWrite path addr value => Sys2Proof.Machine.execWindowSelectWrite path addr value s
  | .pauseQuantaExpire p cls => Sys2Proof.Machine.execPauseQuantaExpire p cls s
  | .ownPauseHoldoffEnd p => Sys2Proof.Machine.execOwnPauseHoldoffEnd p s
  | .thermalBelowLimit deciC => Sys2Proof.Machine.execThermalBelowLimit deciC s
  | .cellReserveRecover days => Sys2Proof.Machine.execCellReserveRecover days s
  | .holdApplyComplete inp => Sys2Proof.Machine.execHoldApplyComplete inp s

end Sys2Proof.Machine
end

