-- ==== Sys2Proof/Machine/Idle.lean ====
section
/-!
DEFINITION. What passes with time alone when no command waits: one tick of 1/1024 s. It moves the clocks
(R69, R237, R485, R488, R497, R499), the counts that run by the second or the millisecond, and the media
processors' own choices. Timers that end have commands of their own.
-/
namespace Sys2Proof.Machine

/-- The PTP counter gains 976,562.5 ns. -/
def Cal.ptpTick (c : Cal) : Cal :=
  let ns := c.ptpNs + 976562 + b2n c.ptpHalf
  { c with
    ptpHalf := !c.ptpHalf
    ptpNs := ns % 1000000000
    ptpSec := c.ptpSec + ns / 1000000000 }

/-- The calendar gains a tick: a positive leap second holds it at the last tick of its day (R499), and a slew of
1,000 ppm leaves out one tick in a thousand (R497). While FREE the uncertainty grows by 20 µs a second (R488). -/
def Cal.calTick (c : Cal) (free : Bool) : Cal :=
  if 0 < c.hold ∧ (c.tick + 1) % (86400 * 1024) = 0 then { c with hold := c.hold - 1 }
  else if 0 < c.slew ∧ 999 ≤ c.slewAcc then { c with slew := c.slew - 1, slewAcc := 0 }
  else
    { c with
      tick := c.tick + 1
      slewAcc := if 0 < c.slew then c.slewAcc + 1 else 0
      uncertUs := if free && (c.tick + 1) % tickHz == 0 then c.uncertUs + 20 else c.uncertUs }

/-- The clocks that run while the drive has power. -/
def Dev.clockTick (d : Dev) : Dev :=
  { d with
    cal := (d.cal.calTick (d.trust == 1)).ptpTick
    io := { d.io with hold := d.io.hold + 1 } }

/-- A suspended input counts its seconds down. -/
def InputSt.second (x : InputSt) : InputSt := { x with suspS := x.suspS - 1 }

/-- What a second brings: running jobs, suspensions and the budgets of R32 and R109. -/
def Dev.secondTick (d : Dev) : Dev :=
  let jobs := d.adm.jobs.map fun e => (e.1, if e.2.st = 1 then { e.2 with elapsed := e.2.elapsed + 1 } else e.2)
  let d := { d with
    adm := { d.adm with jobs := jobs }
    ses := { d.ses with openWin := 0 }
    io := { d.io with holdA := d.io.holdA.second, holdB := d.io.holdB.second, rst := d.io.rst.second } }
  allPorts.foldl (fun d p => d.updPort p fun x => { x with icmp := 0 }) d

/-- The swath core runs its beat. -/
def Dev.coreBeats (d : Dev) (n : Fin 16) : Bool :=
  !d.swFrozen n && !d.resetting (.swath n) && !(d.sw n).trapped && !(d.sw n).failed

/-- What a millisecond brings: the cores' beats and a new window of the storm limiter (R398). -/
def Dev.msTick (d : Dev) : Dev :=
  let src := d.irq.src.filterMap fun e =>
    let x := { e.2 with claims := 0 }
    if x = IrqSrc.idle then none else some (e.1, x)
  let d := { d with irq := { d.irq with src := src } }
  (allSwaths.filter d.coreBeats).foldl (fun d n => d.bump (Base.sw n) F.SW_CORE_HB_COUNT) d

/-- The swaths whose media processor works. -/
def Dev.mediaRuns (d : Dev) (n : Fin 16) : Bool := (d.sw n).ready && d.coreBeats n

/-- One tick of 1/1024 s with no command waiting. A drive without power keeps nothing but the moment. -/
def Dev.idleTick (d : Dev) : Dev :=
  let t := d.now + 1
  let d := { d with now := t }
  let d := if d.boot.running || d.boot.cause != 1 then d.clockTick else d
  if !d.alive then d
  else
    let d := if t % tickHz = 0 then d.secondTick else d
    let d := if (t - 1) * 1000 / tickHz < t * 1000 / tickHz then d.msTick else d
    (allSwaths.filter d.mediaRuns).foldl (fun d n => d.mediaWork n) d

end Sys2Proof.Machine
end

