-- ==== Sys2Proof/Safety.lean ====
section
/-!
DEFINITION. What counts as a safe run, in the terms the statements use: the machine never stops, and a
drive that does not run stays as it is.
-/
namespace Sys2Proof.Machine

/-- A step goes on. -/
def State.goesOn (s : State) : Prop := ∃ t, step s = .next t

/-- The drive has power and has started, and no power-fail has stopped it. -/
def State.alive (s : State) : Prop := s.dev.alive = true

/-- The commands that act on a drive that does not run: starts, the pins that hold or release it, and the chain's
presence pins (log entry 2). -/
def startCommand : Instr → Bool
  | .powerGoodStart _ | .thermalRestart _ _ | .rstInRelease _ | .rstInActivate | .inputStuck _ _
  | .inputSuspendEnd _ | .holdInputChange _ _ | .flushComplete _ | .chainPresenceChange _ _ => true
  | _ => false

/-! ### Words of the statements -/

/-- The command answers a next state whose queue is unchanged and whose drive is as P says. -/
def Completes (c : Instr) (s : State) (P : Dev → Prop) : Prop :=
  ∃ d, exec c s = .next { s with dev := d } ∧ P d

/-- Two places of register fields share a bit. -/
def overlaps (b : Nat) (f : Fld) (c : Nat) (g : Fld) : Prop :=
  b + f.off = c + g.off ∧ f.lo < g.lo + g.width ∧ g.lo < f.lo + f.width

/-- Every register field that shares no bit with a field of the list (with its block's base) reads as
it did. -/
def Dev.OnlyFlds (d d' : Dev) (l : List (Nat × Fld)) : Prop :=
  ∀ c g, (∀ x ∈ l, ¬ overlaps x.1 x.2 c g) → d'.fld c g = d.fld c g

/-- Every interrupt source outside the list has the state it had. -/
def Dev.OnlySrcs (d d' : Dev) (ks : List Nat) : Prop := ∀ k, k ∉ ks → d'.src k = d.src k

/-- Every swath but one is as it was. -/
def Dev.OnlySwath (d d' : Dev) (n : Fin 16) : Prop := ∀ m, m ≠ n → d'.sw m = d.sw m

/-- Every port but one is as it was. -/
def Dev.OnlyPort (d d' : Dev) (p : PortId) : Prop := ∀ q, q ≠ p → d'.port q = d.port q

/-- The drive with the ports of another. -/
def Dev.withPorts (d e : Dev) : Dev := { d with portA := e.portA, portB := e.portB, portC := e.portC }

/-- Every session but one has the context it had. -/
def Dev.OnlyCtx (d d' : Dev) (sid : Nat) : Prop := ∀ i, i ≠ sid → d'.ctx i = d.ctx i

/-- The event is on its way to the recorder, or counts as lost (R502). -/
def Dev.Reported (d d' : Dev) (code unit sev value detail : Nat) : Prop :=
  (∃ e ∈ d'.evr.intake, e.code = code ∧ e.unit = unit ∧ e.sev = sev ∧ e.value = value % 2 ^ 32 ∧
    e.detail = detail % 2 ^ 32) ∨ d.evr.lostPend < d'.evr.lostPend

/-- The field of lost events, which a report may count in. -/
def lostFld : Nat × Fld := (Base.cal, F.EVR_LOST_COUNT)

/-- Nothing changes but the listed register fields. -/
def Dev.OnlyRegs (d d' : Dev) (l : List (Nat × Fld)) : Prop :=
  d.OnlyFlds d' l ∧ { d' with regs := d.regs } = d

/-- Nothing changes but the listed register fields and the listed interrupt sources. -/
def Dev.OnlyRegsSrcs (d d' : Dev) (l : List (Nat × Fld)) (ks : List Nat) : Prop :=
  d.OnlyFlds d' l ∧ d.OnlySrcs d' ks ∧
    { d' with regs := d.regs, irq := { d'.irq with src := d.irq.src } } = d

/-- Nothing changes but the listed register fields, the listed interrupt sources and what the report
of events changes. -/
def Dev.OnlyNoted (d d' : Dev) (l : List (Nat × Fld)) (ks : List Nat) : Prop :=
  d.OnlyFlds d' (lostFld :: l) ∧ d.OnlySrcs d' ks ∧ (∀ e ∈ d.evr.intake, e ∈ d'.evr.intake) ∧
    { d' with
      regs := d.regs, irq := { d'.irq with src := d.irq.src }
      evr := { d'.evr with intake := d.evr.intake, lostPend := d.evr.lostPend } } = d

/-- The counters of what the read-back of a journal line finds (R373). -/
def lineFlds (n : Fin 16) : List (Nat × Fld) :=
  [(Base.sw n, F.SW_JM_CORR_COUNT), (Base.sw n, F.SW_JM_UNCORR_COUNT), (Base.sw n, F.SW_JM_RETIRED_COUNT)]

/-- A phase 1 message has left the queue and counts in this second (R109). -/
def Dev.countOpen (d : Dev) (rest : List OpenMsg) : Dev :=
  { d with ses := { d.ses with opens := rest, openWin := d.ses.openWin + 1 } }

/-- The pause frames a port sends again: 802.3 or PFC for classes 0 to 6, and PFC for class 7. -/
def repeatFrames (d : Dev) (p : PortId) : List TxEnt :=
  (if (d.port p).ownPause then [pauseEnt (d.pauseClasses p) 0xFFFF] else []) ++
    (if (d.port p).ownPause7 then [pauseEnt 0x80 0xFFFF] else [])

/-- A response of a command: its session's list of fragments gains the fragments of one message, of one
status, whose payloads together are the record of a deferred error (24 bytes, or none) and the given
bytes (R88, R144, R197). -/
def Dev.Answered (d d' : Dev) (cid status : Nat) (payload : List Byte) : Prop :=
  ∃ q c c' fs rec, d.cmd cid = some q ∧ d.ctx q.sid = some c ∧ d'.ctx q.sid = some c' ∧
    c'.out = c.out ++ fs ∧ fs ≠ [] ∧
    (∀ f ∈ fs, f.cid = some cid ∧ f.status = status ∧ f.seq = c.txNext ∧ f.op = q.op ∧ f.tag = q.tag) ∧
    (fs.map (·.payload)).flatten = rec ++ payload ∧ (rec.length = 0 ∨ rec.length = 24)

/-- A management command is complete and stands before its step, in a session that lives; it holds no slot of a
swath's queue. -/
def Dev.Asks (d : Dev) (cid op : Nat) (q : Cmd) (c : Ctx) : Prop :=
  d.cmd cid = some q ∧ d.ctx q.sid = some c ∧ q.op = op ∧ q.st = .inSession ∧ q.gotAll = true ∧ q.slotsOn = []

/-- Nothing changes but what the response of a command changes: its session, the commands and their
reservations, the ports that carry it, and the lamp. -/
def Dev.OnlyAnswer (d d' : Dev) (sid : Nat) : Prop :=
  d.OnlyCtx d' sid ∧ (∀ n, (d'.sw n).keys = (d.sw n).keys ∧ (d'.sw n).map = (d.sw n).map) ∧
    { d' with
      portA := d.portA, portB := d.portB, portC := d.portC, pool := d.pool, pool7 := d.pool7
      ses := d.ses, disp := d.disp, sws := d.sws, io := d.io } = d

/-- A start would bring the drive up from V12_IN: an envelope is chosen, the boot ROM's test of the host
SRAM passes, and a firmware slot runs (R410, R541). -/
def Dev.CanStart (d : Dev) (i : StartIn) : Prop :=
  d.chooseEnvelope i = some 1 ∧ none ∉ d.boot.blocksFail i ∧
    (({ d.repairRows i with io := { d.io with faultN := false } }).bootFw i).2 = true

/-- The drive has just started: it runs, the access windows are locked, and no swath is ready yet. -/
def Dev.Started (d' : Dev) : Prop :=
  d'.boot.running = true ∧ d'.io.ledAct = true ∧ d'.fld Base.glb F.GLB_AW_LOCK_LOCKED = 1 ∧
    (∀ n, (d'.sw n).ready = false)

/-- The firmware trial of slot x is confirmed: ACTIVE, its fallback SUPERSEDED, and the anti-rollback
counter at least at its security version (R544, R545). -/
def Dev.Confirmed (d d' : Dev) (x : Bool) : Prop :=
  d'.boot.fw x = .active ∧ d'.boot.secCount = max d.boot.secCount (d.boot.secOf x) ∧ d'.boot.tries = 0 ∧
    (d.boot.fw (!x) = .fallback → d'.boot.fw (!x) = .superseded) ∧
    d.Reported d' 0x0B04 Unit.steward 1 (max d.boot.secCount (d.boot.secOf x)) (d.boot.verOf x)

/-- A good chain frame of a type, which is not a repeat of one acted on (R534). -/
def Dev.Takes (d : Dev) (type : Nat) (f : ChainFrame) : Prop :=
  f.crcOk = true ∧ d.chainOn = true ∧
    ∀ x ∈ d.boot.chainSeen, x.1 = type → x.2.1 = f → x.2.2 + 4 ≤ d.now

/-- What the chain carries of one frame: nothing where no neighbour stands or the chain is off. -/
def Dev.chainFrames (d : Dev) (down : Bool) (type hop offset : Nat) (xfer : Word) (payload : List Byte) :
    List ChainOut :=
  if (if down then d.io.dnHere else d.io.upHere) = true ∧ d.chainOn = true then
    [{ down := down, type := type, copies := if type = 2 ∨ type = 5 ∨ type = 7 then 1 else 3,
       frame := { hop := hop, offset := offset, xfer := xfer, payload := payload, crcOk := true } }]
  else []

/-- A REFUSE frame of this drive (R540). -/
def Dev.refusal (d : Dev) (hop reason : Nat) (xfer : Word) : List ChainOut :=
  d.chainFrames false 4 1 0 xfer (be 1 hop ++ be 1 reason ++ zeros 2 ++ d.boot.serial)

/-- A register whose write only stores: it is no window or stepping address, and its block's other
writes do nothing more. -/
def plainReg (a : Nat) : Bool :=
  (windowAt a).isNone && !isStepAddr a && !inSw a && decide (a % 4 = 0) &&
    !(decide (0x20000 ≤ a ∧ a < 0x30000) || decide (0x40000 ≤ a ∧ a < 0x43000) ||
      decide (0x60000 ≤ a ∧ a < 0x70000)) &&
    !(a == 0x00100 || a == 0x10054 || a == 0x30100 || a == 0x70200 || a == 0x70800)

/-- A data register of a stepping window (R603). -/
def isStepWindow (a : Nat) : Bool :=
  a == Addr.tcData || a == Addr.paData || a == Addr.gclData .a || a == Addr.gclData .b || a == Addr.gclData .c

/-- SANITIZE has begun: new keys under a new salt, a new hash secret, no deferred error, an empty front
cache, and nothing left in the swaths that take part (R570 to R573). -/
def Dev.Sanitized (d d' : Dev) (draw : EraseDraw) : Prop :=
  d'.boot.saltA = draw.kekSalt ∧ d'.boot.saltB = draw.kekSalt ∧
    (∀ sp k, look sp d.boot.keys = some k →
      look sp d'.boot.keys = some (k.rewritten draw.kekSalt (drawKey draw.keys sp) 1)) ∧
    d'.disp.secret = draw.secret ∧ d'.disp.defLog = [] ∧ d'.disp.fc = [] ∧
    (∀ n, d.skipsSanitize n = false → (d'.sw n).keys = [] ∧ (d'.sw n).map = []) ∧
    ∃ j, d'.job 1 0 = some j ∧ j.st = 1 ∧ j.permille = 20

/-- The swath has room for a change of a key: in its ring for the records of the change and of the map units
it fills and frees, in its packing area, and in its write counter (R265, R288, R327). -/
def Dev.HasRoom (d : Dev) (n : Fin 16) (space : Nat) (key : List Byte) (old : Option KeyEnt) : Prop :=
  (d.sw n).ring.length + 2097152 + key.length + 2 * ((old.map KeyEnt.units).getD []).length +
      (((d.sw n).tombsOf space key).flatMap Tomb.units).length ≤ ringCap ∧
    (d.sw n).count + 3 < 2 ^ 60 ∧ firstGap 0 (d.sw n).pack < 32768

/-- The keys of a swath stand in their order, each once. -/
def Swath.InOrder (s : Swath) : Prop :=
  s.keys.Pairwise (fun a b => keyBefore a.hash a.key a.space b = true) ∧
    ∀ a ∈ s.keys, ∀ b ∈ s.keys, a.space = b.space → a.key = b.key → a = b

/-- No command waits for room in a ring, and no internal hold stands at the swath. -/
def Dev.NoneWaits (d : Dev) (n : Fin 16) : Prop :=
  (d.sw n).haz = [] ∧ ∀ e ∈ d.disp.cmds, e.2.started = true ∨ e.2.passed = []

/-- An operation is in progress on a die, and not suspended. -/
def Dev.DieBusy (d : Dev) (n : Fin 16) (die : Fin 32) (op : NandOp) : Prop :=
  ∃ o, look die.val (d.sw n).ops = some o ∧ o.op = op ∧ o.held = false

/-- The swaths only grant waiting operations the tokens they ask for; where none waits, nothing changes. -/
def Dev.OnlyGrants (d d' : Dev) : Prop :=
  ∀ n, d'.sw n = { d.sw n with ops := (d'.sw n).ops, waits := (d'.sw n).waits } ∧
    ((d.sw n).waits = [] → d'.sw n = d.sw n)

/-- Every swath holds the keys and the map it held. -/
def Dev.SameKeys (d d' : Dev) : Prop :=
  ∀ n, (d'.sw n).keys = (d.sw n).keys ∧ (d'.sw n).map = (d.sw n).map

/-- A masked write of this register is taken: its address is assigned, its function is neither under
reset nor frozen, and every field stays in its range (R598, R407, R383). -/
def Dev.TakesWrite (d : Dev) (path : ReqPath) (a : Nat) (mask value : Word) (r : RegDesc) : Prop :=
  regDesc a = some r ∧ d.regWaits a = false ∧ d.regFrozen a = false ∧
    r.fields.any (fun f => f.outside (d.readWord path a) mask value) = false

/-- A port's admin bank, ADMIN_LEN and GCL_CYCLE are as they were, and GCL_ERR is 1. -/
def Dev.GclKept (d d' : Dev) (p : PortId) : Prop :=
  (d'.port p).gclAdmin = (d.port p).gclAdmin ∧
    d'.fld (Base.prt p) F.PRT_GCL_CYCLE_NS = d.fld (Base.prt p) F.PRT_GCL_CYCLE_NS ∧
    d'.fld (Base.prt p) F.PRT_GCL_CTRL_ADMIN_LEN = d.fld (Base.prt p) F.PRT_GCL_CTRL_ADMIN_LEN ∧
    d'.flag (Base.prt p) F.PRT_GCL_CTRL_GCL_ERR = true

/-- What a drive that does not run keeps while time passes: everything but the clocks. -/
def Dev.sameButClocks (d d' : Dev) : Prop :=
  { d' with now := d.now, cal := d.cal, io := { d'.io with hold := d.io.hold } } = d

/-- The drive does not run and no start waits in its queue. -/
def State.stopped (s : State) : Prop :=
  s.dev.alive = false ∧ s.pending.all (fun c => !startCommand c) = true

end Sys2Proof.Machine
end

