-- ==== Sys2Proof/Certificates/Slice0/Obligations.lean ====
section
/-!
DEFINITION. The statements for the provers. Each says of named commands what they do to the drive, and
what they leave, in the words of `Safety.lean`; its docstring names the rules of the spec it follows.
-/
open Sys2Proof Sys2Proof.Machine

/-! ### The host port (chapter "Host port and Ethernet") -/

/-- R28, R35, Table 2-2, R77, R79: a frame that fails one of checks 1 to 8 counts once in the counter of
the first check it fails, and leaves nothing else but the FEC codewords it brought (Table 2-7, 25 and 26).
R28, R40, R41: an SKP frame that passes every check, finds room and is not searched (TC_EN is 0)
waits to commit with its payload, its source and one cell for each 256 bytes begun; class 7 takes cells
of the reserve first. A frame that finds no room counts in NO_BUF. -/
def Obligations.FramesAreCheckedAndWaitToCommit : Prop :=
  (∀ (s : State) (p : PortId) (f : Frame) (k : Nat), s.alive → s.dev.portCarries p = true →
     s.dev.firstFailure p f = some k →
     Completes (.frameReceive p f) s fun d =>
       d.fld (Base.prt p) (F.PRT_CNT_COUNT.at k) = (s.dev.fld (Base.prt p) (F.PRT_CNT_COUNT.at k) + 1) % 2 ^ 32 ∧
       (hasFec p = true → k ≠ Cnt.fecFixed → d.fld (Base.prt p) (F.PRT_CNT_COUNT.at Cnt.fecFixed) =
         (s.dev.fld (Base.prt p) (F.PRT_CNT_COUNT.at Cnt.fecFixed) + f.fecFixed) % 2 ^ 32) ∧
       s.dev.OnlyFlds d ([(Base.prt p, F.PRT_CNT_COUNT.at k), (Base.prt p, F.PRT_CNT_HALF_HALF)] ++
         (if hasFec p then [(Base.prt p, F.PRT_CNT_COUNT.at Cnt.fecFixed),
           (Base.prt p, F.PRT_CNT_COUNT.at Cnt.fecBad)] else [])) ∧
       s.dev.OnlySrcs d [1 + 8 * p.idx] ∧ { d with regs := s.dev.regs, irq := s.dev.irq } = s.dev) ∧
  (∀ (s : State) (p : PortId) (f : Frame) (ip : IpHdr) (sp dp : BitVec 16) (c : UdpCsum) (skp : SkpFrame),
     s.alive → s.dev.portCarries p = true → s.dev.firstFailure p f = none → f.body = .udp ip sp dp c skp →
     s.dev.resetting .policyMatcher = false → s.dev.flag Base.pol F.POL_CTRL_TC_EN = false →
     (s.dev.roomFor (s.dev.initialClass p f) (cellsOf f.size) = true →
       Completes (.frameReceive p f) s fun d =>
         (∃ e, (d.port p).rxq = (s.dev.port p).rxq ++ [e] ∧ e.skp = skp ∧ e.srcIp = ip.src ∧ e.srcUdp = sp ∧
           e.act = 0 ∧ e.keyNo = (if bringsKey skp = true then some s.dev.pol.keyNo else none) ∧ (e.cells, e.cells7) = s.dev.splitCells (s.dev.initialClass p f) (cellsOf f.size) ∧
           d.pool = s.dev.pool + e.cells ∧ d.pool7 = s.dev.pool7 + e.cells7) ∧
         d.ses = s.dev.ses ∧ d.disp = s.dev.disp ∧ d.sws = s.dev.sws) ∧
     (s.dev.roomFor (s.dev.initialClass p f) (cellsOf f.size) = false →
       Completes (.frameReceive p f) s fun d =>
         d.fld (Base.prt p) (F.PRT_CNT_COUNT.at Cnt.noBuf) =
           (s.dev.fld (Base.prt p) (F.PRT_CNT_COUNT.at Cnt.noBuf) + 1) % 2 ^ 32 ∧
         { d with regs := s.dev.regs, irq := s.dev.irq } = s.dev))

/-- R43 to R48: the timers of pause. The drive's own pause is sent again while it stands; a partner's
pause longer than PRT_PWD.TIME is broken, with its source and event, and a hold-off begins and ends; the
same watchdog ends the drive's own pause, and no queued pause goes out any more; granted quanta run out for the port or for one class. -/
def Obligations.PauseTimersDoWhatTheirRulesSay : Prop :=
  ∀ (s : State) (p : PortId), s.alive →
    Completes (.pauseRepeatTimer p) s (fun d =>
      (d.port p).txq = (s.dev.port p).txq ++ repeatFrames s.dev p ∧ s.dev.OnlyPort d p ∧
      d.withPorts s.dev = s.dev) ∧
    (∀ cls ms, s.dev.fld (Base.prt p) F.PRT_PWD_TIME ≠ 0 → s.dev.fld (Base.prt p) F.PRT_PWD_TIME < ms →
      s.dev.heldPaused p cls = true →
      Completes (.pauseWatchdogFire p cls ms) s (fun d =>
        d.fld (Base.prt p) F.PRT_STATUS_PAUSED = 0 ∧ d.fld (Base.prt p) F.PRT_STATUS_PFC_PAUSED = 0 ∧
        d.fld (Base.prt p) F.PRT_STATUS_PWD_HOLDOFF = 1 ∧ (d.src (2 + 8 * p.idx)).event = true ∧
        s.dev.Reported d 0x0301 (Unit.port p) 2 ms 1 ∧
        s.dev.OnlyFlds d [(Base.prt p, F.PRT_STATUS_PAUSED), (Base.prt p, F.PRT_STATUS_PFC_PAUSED),
          (Base.prt p, F.PRT_STATUS_PWD_HOLDOFF), lostFld] ∧ s.dev.OnlySrcs d [2 + 8 * p.idx] ∧
        { d with regs := s.dev.regs, irq := s.dev.irq, evr := s.dev.evr } = s.dev)) ∧
    Completes (.pauseHoldoffEnd p) s (fun d =>
      d.fld (Base.prt p) F.PRT_STATUS_PWD_HOLDOFF = 0 ∧
      s.dev.OnlyFlds d [(Base.prt p, F.PRT_STATUS_PWD_HOLDOFF)] ∧ { d with regs := s.dev.regs } = s.dev) ∧
    (∀ ms, s.dev.fld (Base.prt p) F.PRT_PWD_TIME ≠ 0 → s.dev.fld (Base.prt p) F.PRT_PWD_TIME < ms →
      ((s.dev.port p).ownPause = true ∨ (s.dev.port p).ownPause7 = true) →
      Completes (.ownPauseWatchdog p ms) s (fun d =>
        d.port p = { s.dev.port p with
          ownPause := false, ownPause7 := false, ownHold := true,
          txq := (s.dev.port p).txq.filter fun e => !e.asserts } ∧
        s.dev.Reported d 0x0301 (Unit.port p) 2 ms 0 ∧ s.dev.OnlyPort d p ∧ s.dev.OnlyFlds d [lostFld] ∧
        d.irq = s.dev.irq ∧ d.ses = s.dev.ses ∧ d.disp = s.dev.disp)) ∧
    Completes (.ownPauseHoldoffEnd p) s (fun d =>
      (d.port p).ownHold = false ∧ (d.port p).rxq = (s.dev.port p).rxq ∧ s.dev.OnlyPort d p ∧
      d.withPorts s.dev = s.dev) ∧
    Completes (.pauseQuantaExpire p none) s (fun d =>
      d.fld (Base.prt p) F.PRT_STATUS_PAUSED = 0 ∧ s.dev.OnlyFlds d [(Base.prt p, F.PRT_STATUS_PAUSED)] ∧
      { d with regs := s.dev.regs } = s.dev) ∧
    (∀ c : Fin 8, Completes (.pauseQuantaExpire p (some c)) s (fun d =>
      bit (d.fld (Base.prt p) F.PRT_STATUS_PFC_PAUSED) c.val = false ∧
      (∀ j, j ≠ c.val → bit (d.fld (Base.prt p) F.PRT_STATUS_PFC_PAUSED) j =
        bit (s.dev.fld (Base.prt p) F.PRT_STATUS_PFC_PAUSED) j) ∧
      s.dev.OnlyFlds d [(Base.prt p, F.PRT_STATUS_PFC_PAUSED)] ∧ { d with regs := s.dev.regs } = s.dev))

/-- R54 to R57: gate lists. A legal admin list becomes PENDING, an illegal one sets GCL_ERR; at a cycle
start at or after the base time the banks change places; an entry's end moves to the next entry, the
last holds, and the cycle's end starts entry 0; GCL_DATA reads and writes the admin bank at the address
of the path, which steps; of an entry's word 0 only GATES is kept (R6, Table 2-4). -/
def Obligations.GateListsSwapStepAndAreAccessed : Prop :=
  ∀ (s : State) (p : PortId), s.alive →
    (s.dev.gclLegal p = true → Completes (.gclSwapReq p) s (fun d =>
      d.fld (Base.prt p) F.PRT_GCL_CTRL_PENDING = 1 ∧
      s.dev.OnlyFlds d [(Base.prt p, F.PRT_GCL_CTRL_PENDING)] ∧ { d with regs := s.dev.regs } = s.dev)) ∧
    (s.dev.gclLegal p = false → Completes (.gclSwapReq p) s (fun d =>
      d.fld (Base.prt p) F.PRT_GCL_CTRL_GCL_ERR = 1 ∧
      s.dev.OnlyFlds d [(Base.prt p, F.PRT_GCL_CTRL_GCL_ERR)] ∧ s.dev.OnlySrcs d [3 + 8 * p.idx])) ∧
    (s.dev.flag (Base.prt p) F.PRT_GCL_CTRL_PENDING = true →
      s.dev.fld (Base.prt p) F.PRT_GCL_BASE_SEC_SEC * 1000000000 + s.dev.fld (Base.prt p) F.PRT_GCL_BASE_NS_NS
        ≤ s.dev.ptpNow →
      Completes (.gclSwap p) s (fun d =>
        d.port p = { s.dev.port p with
          gclOper := (s.dev.port p).gclAdmin, gclAdmin := (s.dev.port p).gclOper,
          gclLen := s.dev.fld (Base.prt p) F.PRT_GCL_CTRL_ADMIN_LEN,
          gclCycle := s.dev.fld (Base.prt p) F.PRT_GCL_CYCLE_NS, gclIdx := 0 } ∧
        d.fld (Base.prt p) F.PRT_GCL_CTRL_PENDING = 0 ∧ s.dev.OnlyPort d p ∧
        s.dev.OnlyFlds d [(Base.prt p, F.PRT_GCL_CTRL_PENDING)])) ∧
    (∀ e, Completes (.gclEntryExpire p e) s (fun d =>
      (d.port p).gclIdx = (if e then 0 else if (s.dev.port p).gclIdx + 1 < (s.dev.port p).gclLen
        then (s.dev.port p).gclIdx + 1 else (s.dev.port p).gclIdx) ∧
      d.port p = { s.dev.port p with gclIdx := (d.port p).gclIdx } ∧ s.dev.OnlyPort d p ∧
      d.withPorts s.dev = s.dev)) ∧
    (∀ path v, s.dev.flag (Base.prt p) F.PRT_GCL_CTRL_PENDING = false →
      Completes (.gclDataAccess p path (some v)) s (fun d =>
        lookD (bitsOf (s.dev.pathReg path (Addr.gclAddr p)) 0 9) 0 (d.port p).gclAdmin =
          gclWord (bitsOf (s.dev.pathReg path (Addr.gclAddr p)) 0 9) v ∧
        (∀ j, j ≠ bitsOf (s.dev.pathReg path (Addr.gclAddr p)) 0 9 →
          lookD j 0 (d.port p).gclAdmin = lookD j 0 (s.dev.port p).gclAdmin) ∧
        d.pathReg path (Addr.gclAddr p) =
          BitVec.ofNat 32 ((bitsOf (s.dev.pathReg path (Addr.gclAddr p)) 0 9 + 1) % 512) ∧
        s.dev.OnlyPort d p ∧ d.regs = s.dev.regs)) ∧
    (∀ path, Completes (.gclDataAccess p path none) s (fun d =>
      d.pathReg path (Addr.gclAddr p) =
        BitVec.ofNat 32 ((bitsOf (s.dev.pathReg path (Addr.gclAddr p)) 0 9 + 1) % 512) ∧
      { d with prs := s.dev.prs } = s.dev))

/-- R62 to R66, R609: a step drops the link for renegotiation and clears pause state; of two fabric ports that
meet their conditions at one moment port A steps and port B waits, until A's link has come up again; a trained
link sets LINK and RATE; in a step the link is down already; a link that goes down, or a port that is disabled, raises the link source.
R584 to R586: LOOP takes the mode written (0b11 is reserved), and returns
to 0 when its time is up; the loopback test's results are those of the frames that came back. -/
def Obligations.LinksStepChangeAndLoopBack : Prop :=
  (∀ (s : State) (p : PortId), s.alive →
     (∀ down load, (∀ q, (s.dev.port q).stepWait = none) →
       s.dev.flag (Base.prt p) F.PRT_CTRL_STEP_EN = true →
       s.dev.flag (Base.prt p) F.PRT_STATUS_LINK = true → s.dev.flag (Base.prt p) F.PRT_STATUS_STEPPING = false →
       s.dev.otherStepping p = false →
       (if down then s.dev.fld (Base.prt p) F.PRT_STATUS_RATE = 1 ∧ (s.dev.port p).lowAdv = true ∧
           load < s.dev.fld (Base.prt p) F.PRT_STEP_DOWN_PCT
         else (s.dev.port p).stepped = true ∧ s.dev.fld (Base.prt p) F.PRT_STATUS_RATE = lowMode p ∧
           s.dev.fld (Base.prt p) F.PRT_STEP_UP_PCT < load) →
       Completes (if down then .rateStepDown p ⟨load, none⟩ else .rateStepUp p ⟨load, none⟩) s (fun d =>
         d.fld (Base.prt p) F.PRT_STATUS_LINK = 0 ∧ d.fld (Base.prt p) F.PRT_STATUS_STEPPING = 1 ∧
         d.fld (Base.prt p) F.PRT_STATUS_PAUSED = 0 ∧ d.fld (Base.prt p) F.PRT_STATUS_PFC_PAUSED = 0 ∧
         d.port p = { s.dev.port p with stepped := down, ownPause := false, ownPause7 := false } ∧
         s.dev.OnlyPort d p ∧
         s.dev.OnlyFlds d [(Base.prt p, F.PRT_STATUS_LINK), (Base.prt p, F.PRT_STATUS_RATE),
           (Base.prt p, F.PRT_STATUS_PAUSED), (Base.prt p, F.PRT_STATUS_PFC_PAUSED),
           (Base.prt p, F.PRT_STATUS_LPI), (Base.prt p, F.PRT_STATUS_STEPPING)])) ∧
     (∀ down la lb, (s.dev.port .a).stepWait = none → s.dev.wantsStep .a down la = true →
       s.dev.wantsStep .b down lb = true →
       Completes (if down then .rateStepDown .b ⟨lb, some la⟩ else .rateStepUp .b ⟨lb, some la⟩) s (fun d =>
         d.fld (Base.prt .a) F.PRT_STATUS_STEPPING = 1 ∧ d.fld (Base.prt .b) F.PRT_STATUS_STEPPING = 0 ∧
         d.port .b = { s.dev.port .b with stepWait := some down } ∧ d.port .c = s.dev.port .c)) ∧
     (∀ (mode : BitVec 3) low eee down, mode ≠ 0 → s.dev.mayLink .a = true → s.dev.modeOk .a mode.toNat = true →
       (s.dev.port .a).stepWait = none → (s.dev.port .b).stepWait = some down → s.dev.mayStep .b down = true →
       Completes (.linkChange .a mode low eee) s (fun d =>
         d.fld (Base.prt .b) F.PRT_STATUS_STEPPING = 1 ∧ d.fld (Base.prt .b) F.PRT_STATUS_LINK = 0 ∧
         (d.port .b).stepWait = none ∧ (d.port .b).stepped = down)) ∧
     (∀ (mode : BitVec 3) low eee, mode ≠ 0 → s.dev.mayLink p = true → s.dev.modeOk p mode.toNat = true →
       (∀ q, (s.dev.port q).stepWait = none) →
       Completes (.linkChange p mode low eee) s (fun d =>
         d.fld (Base.prt p) F.PRT_STATUS_LINK = 1 ∧ d.fld (Base.prt p) F.PRT_STATUS_RATE = mode.toNat ∧
         d.fld (Base.prt p) F.PRT_STATUS_STEPPING = 0 ∧
         d.port p = { s.dev.port p with lowAdv := low, eeeAdv := eee, ownPause := (d.port p).ownPause,
                                        ownPause7 := (d.port p).ownPause7, txq := (d.port p).txq } ∧
         s.dev.OnlyPort d p ∧
         (s.dev.flag (Base.prt p) F.PRT_STATUS_LINK = false → (d.src (8 * p.idx)).event = true) ∧
         s.dev.OnlySrcs d [8 * p.idx] ∧
         s.dev.OnlyFlds d [(Base.prt p, F.PRT_STATUS_LINK), (Base.prt p, F.PRT_STATUS_RATE),
           (Base.prt p, F.PRT_STATUS_STEPPING)])) ∧
     (∀ low eee, s.dev.flag (Base.prt p) F.PRT_STATUS_STEPPING = true →
       Completes (.linkChange p 0 low eee) s (fun d => d = s.dev)) ∧
     (∀ low eee, s.dev.flag (Base.prt p) F.PRT_STATUS_STEPPING = false → Completes (.linkChange p 0 low eee) s (fun d =>
       d.fld (Base.prt p) F.PRT_STATUS_LINK = 0 ∧ d.fld (Base.prt p) F.PRT_STATUS_RATE = 0 ∧
       (s.dev.flag (Base.prt p) F.PRT_STATUS_LINK = true → (d.src (8 * p.idx)).event = true) ∧
       s.dev.OnlySrcs d [8 * p.idx] ∧ d.port p = { s.dev.port p with stepped := false, stepWait := none } ∧
       s.dev.OnlyPort d p ∧ { d.withPorts s.dev with regs := s.dev.regs, irq := s.dev.irq } = s.dev)) ∧
     (p = .c → s.dev.flag (Base.prt p) F.PRT_CTRL_EEE_EN = true → (s.dev.port p).eeeAdv = true →
       (s.dev.port p).txq = [] → s.dev.flag (Base.prt p) F.PRT_STATUS_LINK = true →
       Completes (.eeeLpiEnter p) s (fun d => d.fld (Base.prt p) F.PRT_STATUS_LPI = 1 ∧
         s.dev.OnlyFlds d [(Base.prt p, F.PRT_STATUS_LPI)] ∧ { d with regs := s.dev.regs } = s.dev)) ∧
     (∀ en, Completes (.portEnableWrite p en) s (fun d =>
       d.fld (Base.prt p) F.PRT_CTRL_ENABLE = b2n en ∧
       (en = false → d.fld (Base.prt p) F.PRT_STATUS_LINK = 0) ∧
       d.port p = (if en then s.dev.port p else { s.dev.port p with stepped := false, stepWait := none }) ∧
       s.dev.OnlyPort d p ∧ { d.withPorts s.dev with regs := s.dev.regs, irq := s.dev.irq } = s.dev))) ∧
  (∀ (s : State) (p : PortId), s.alive →
     (∀ mode : BitVec 2, mode ≠ 3 → Completes (.loopSet p mode) s (fun d =>
       d.fld (Base.prt p) F.PRT_CTRL_LOOP = mode.toNat ∧ s.dev.OnlyPort d p ∧
       { d.withPorts s.dev with regs := s.dev.regs, irq := s.dev.irq } = s.dev)) ∧
     (s.dev.fld (Base.prt p) F.PRT_CTRL_LOOP ≠ 0 → Completes (.loopTimeout p) s (fun d =>
       d.fld (Base.prt p) F.PRT_CTRL_LOOP = 0 ∧ d.fld (Base.prt p) F.PRT_STATUS_LINK = 0 ∧
       s.dev.OnlyPort d p ∧ { d.withPorts s.dev with regs := s.dev.regs, irq := s.dev.irq } = s.dev)) ∧
     (∀ received bad, s.dev.fld (Base.prt p) F.PRT_CTRL_LOOP = 1 → s.dev.portPowered p = true →
       received ≤ s.dev.fld (Base.prt p) F.PRT_LBT_CTRL_FRAMES → bad ≤ received →
       Completes (.lbtGo p received bad) s (fun d =>
         d.fld (Base.prt p) F.PRT_LBT_STAT_SENT = s.dev.fld (Base.prt p) F.PRT_LBT_CTRL_FRAMES ∧
         d.fld (Base.prt p) F.PRT_LBT_STAT_RECEIVED = received ∧ d.fld (Base.prt p) F.PRT_LBT_ERR_BAD = bad ∧
         d.fld (Base.prt p) F.PRT_LBT_ERR_DONE = 1 ∧
         d.fld (Base.prt p) F.PRT_LBT_ERR_PASS =
           b2n (received == s.dev.fld (Base.prt p) F.PRT_LBT_CTRL_FRAMES && bad == 0) ∧
         s.dev.OnlyFlds d [(Base.prt p, F.PRT_LBT_STAT_SENT), (Base.prt p, F.PRT_LBT_STAT_RECEIVED),
           (Base.prt p, F.PRT_LBT_ERR_BAD), (Base.prt p, F.PRT_LBT_ERR_DONE), (Base.prt p, F.PRT_LBT_ERR_PASS)] ∧
         { d with regs := s.dev.regs } = s.dev)))

/-- R50, R28 (ARP, neighbour and echo answers among them): the frame FRAME_TRANSMIT chooses leaves the
queue, is the port's last frame with a good FCS, and counts in TX_OK; a fragment or an ACK message of a session
leaves the same way (R36, R51, R83, R97).
R60, R61, R58: an underrun ends the frame with an inverted FCS, counts, raises its source and lifts
the class's level by one, to at most 5; a class that has sent DECAY good frames above CT_BASE falls by one;
a frame that no gate window holds leaves the queue and counts. -/
def Obligations.TransmissionUnderrunsAndGates : Prop :=
  (∀ (s : State) (p : PortId) (left : List Nat) (e : TxEnt) (rest : List TxEnt), s.alive →
     s.dev.portCarries p = true → s.dev.chooseTx p left = some (e, rest) → s.dev.irq.due = [] →
     (e.item = .arpReply ∨ e.item = .neighbourAdv ∨ e.item = .echoReply ∨ (∃ cs q, e.item = .pauseF cs q) →
       Completes (.frameTransmit p left) s fun d =>
         (d.port p).txq = rest ∧ d.fld (Base.prt p) F.PRT_STATUS_LPI = 0 ∧
         (∃ w, (d.port p).last = some w ∧ w.item = e.item ∧ w.via = e.via ∧ w.fcsOk = true ∧
           w.vid = (if e.via.tagged then s.dev.fld (Base.prt p) F.PRT_FRAME_DEF_VID else 0) ∧
           ((e.item = .echoReply ∨ e.item = .neighbourAdv) → ∃ h, w.ip = some h ∧ h.dst = e.via.peer ∧
             h.ttl = s.dev.fld (Base.prt p) F.PRT_IP_TTL)) ∧
         d.fld (Base.prt p) (F.PRT_CNT_COUNT.at Cnt.txOk) =
           (s.dev.fld (Base.prt p) (F.PRT_CNT_COUNT.at Cnt.txOk) + 1) % 2 ^ 32 ∧
         s.dev.OnlyPort d p ∧ d.ses = s.dev.ses ∧ d.disp = s.dev.disp ∧ d.sws = s.dev.sws) ∧
     (∀ sid ep seq idx c f, e.item = .skp sid ep seq idx → s.dev.ctx sid = some c →
       c.frag ep seq idx = some f → c.port = p → (c.stamps ep).isSome →
       Completes (.frameTransmit p left) s fun d =>
         (d.port p).txq = rest ∧
         (∃ w, (d.port p).last = some w ∧ w.item = e.item ∧ w.fcsOk = true ∧ w.csum = 0xFFFF) ∧
         (∃ c' f', d.ctx sid = some c' ∧ c'.frag ep seq idx = some f' ∧ f'.sent = f.sent + 1 ∧
           f'.payload = f.payload ∧ f'.good = true) ∧
         s.dev.OnlyPort d p ∧ s.dev.OnlyCtx d sid ∧ s.dev.SameKeys d) ∧
     (∀ sid ep seq b c, e.item = .ackMsg sid ep seq b → s.dev.ctx sid = some c → c.port = p →
       (c.stamps ep).isSome →
       Completes (.frameTransmit p left) s fun d =>
         (d.port p).txq = rest ∧ (∃ w, (d.port p).last = some w ∧ w.item = e.item ∧ w.fcsOk = true) ∧
         (∃ c', d.ctx sid = some c' ∧ c'.ackDue = false ∧ c'.out = c.out) ∧
         s.dev.OnlyPort d p ∧ s.dev.OnlyCtx d sid ∧ d.disp = s.dev.disp ∧ d.sws = s.dev.sws)) ∧
  (∀ (s : State) (p : PortId), s.alive →
     (∀ left e rest sid ep seq idx c f, s.dev.portCarries p = true →
       s.dev.chooseTx p left = some (e, rest) → e.item = .skp sid ep seq idx → e.via.cls < 8 →
       s.dev.ctx sid = some c → c.frag ep seq idx = some f → c.port = p → (c.stamps ep).isSome →
       Completes (.txUnderrun p left) s fun d =>
         (∃ w, (d.port p).last = some w ∧ w.item = e.item ∧ w.fcsOk = false) ∧ (d.port p).txq = rest ∧
         d.ctLevel p e.via.cls = min 5 (s.dev.ctLevel p e.via.cls + 1) ∧
         d.fld (Base.prt p) (F.PRT_CNT_COUNT.at Cnt.txUnderrun) =
           (s.dev.fld (Base.prt p) (F.PRT_CNT_COUNT.at Cnt.txUnderrun) + 1) % 2 ^ 32 ∧
         (d.src (4 + 8 * p.idx)).event = true ∧ s.dev.OnlyPort d p ∧ s.dev.OnlyCtx d sid) ∧
     (∀ cls : Fin 8, s.dev.fld (Base.prt p) F.PRT_CT_CT_BASE < s.dev.ctLevel p cls.val →
       s.dev.fld (Base.prt p) F.PRT_CT_DECAY ≤ lookD cls.val 0 (s.dev.port p).sentGood →
       Completes (.ctLevelDecay p cls) s fun d =>
         d.ctLevel p cls.val = s.dev.ctLevel p cls.val - 1 ∧
         (∀ k, k < 8 → k ≠ cls.val → d.ctLevel p k = s.dev.ctLevel p k) ∧
         lookD cls.val 0 (d.port p).sentGood = 0 ∧ s.dev.OnlyPort d p ∧
         s.dev.OnlyFlds d [(Base.prt p, F.PRT_CT_LEVEL_LEVEL)]) ∧
     (∀ (cls : Fin 8) e rest, s.dev.flag (Base.prt p) F.PRT_GCL_CTRL_GATE_EN = true →
       s.dev.flag (Base.prt p) F.PRT_STATUS_STEPPING = false →
       s.dev.takeTx p cls.val (List.replicate 9 (10 ^ 12)) (s.dev.toSend p) = some (e, rest) →
       Completes (.gateHeldDrop p cls) s fun d =>
         d.port p = { s.dev.port p with txq := rest } ∧
         d.fld (Base.prt p) (F.PRT_CNT_COUNT.at Cnt.txGateHeld) =
           (s.dev.fld (Base.prt p) (F.PRT_CNT_COUNT.at Cnt.txGateHeld) + 1) % 2 ^ 32 ∧
         s.dev.OnlyPort d p ∧ d.disp = s.dev.disp ∧ d.sws = s.dev.sws))

/-- R71, R75, R76: a fill whose key has been invalidated since its GET is dropped and counted; another
goes into the front cache, in place of the key's older entry; FLUSH empties the cache.
R186, R188, R325, R437: a write's waiting data takes a FREE unit of the protected buffer, one numbered
below N (log entry 78), as FILLING, and the unit counts as taken.
R197, R199: deleting the DELIVERED entries of the deferred-error log leaves exactly the others. -/
def Obligations.FrontCacheAndBufferUnits : Prop :=
  (∀ s : State, s.alive →
     (∀ e no rest, s.dev.disp.fills = (e, no) :: rest →
       no < lookD (e.hash.toNat % 4096) 0 s.dev.disp.invTab →
       Completes .fcFill s fun d => d.disp = { s.dev.disp with fills := rest } ∧
         d.fld Base.dsp F.DSP_FC_FILL_DROP_COUNT = (s.dev.fld Base.dsp F.DSP_FC_FILL_DROP_COUNT + 1) % 2 ^ 32 ∧
         s.dev.OnlyRegsSrcs { d with disp := s.dev.disp } [(Base.dsp, F.DSP_FC_FILL_DROP_COUNT)] [0x18]) ∧
     (∀ e no rest, s.dev.disp.fills = (e, no) :: rest →
       lookD (e.hash.toNat % 4096) 0 s.dev.disp.invTab ≤ no → s.dev.disp.fcBlock = false →
       s.dev.flag Base.dsp F.DSP_FC_CTRL_FC_EN = true →
       Completes .fcFill s fun d => d.disp.fills = rest ∧ e ∈ d.disp.fc ∧
         (∀ y ∈ d.disp.fc, y.space = e.space → y.key = e.key → y = e) ∧
         { d with disp := s.dev.disp } = s.dev) ∧
     Completes .fcFlush s (fun d => d.disp.fc = [] ∧ { d with disp := s.dev.disp } = s.dev)) ∧
  ((∀ (s : State) (n : Fin 16) (cid unit : Nat) (q : Cmd), s.alive → s.dev.cmd cid = some q →
      isWrite q.op = true → q.op ≠ Op.putStream → s.dev.swRuns n = true → n ∈ q.eligible → n ∉ q.passed →
      unit < s.dev.pw.capUnits →
      look unit (s.dev.sw n).units = none → lookD n.val 0 q.taken < unitsFor q.len → q.gotAll = true →
      Completes (.bufferUnitTake n cid unit) s fun d =>
        (∃ u, look unit (d.sw n).units = some u ∧ u.st = .filling ∧ u.cid = some cid ∧ u.space = q.space ∧
          u.key = q.key ∧ u.ver = q.ver) ∧
        (∃ q', d.cmd cid = some q' ∧ q'.units = q.units ++ [(n, unit)] ∧
          lookD n.val 0 q'.taken = lookD n.val 0 q.taken + 1) ∧ s.dev.OnlySwath d n ∧ d.ses = s.dev.ses) ∧
   (∀ s : State, s.alive → Completes .defClearDelivered s fun d =>
      (∀ e, e ∈ d.disp.defLog ↔ e ∈ s.dev.disp.defLog ∧ e.2.delivered = false) ∧
      d.disp = { s.dev.disp with defLog := d.disp.defLog } ∧ { d with disp := s.dev.disp } = s.dev))

/-! ### Sessions (chapter "Sessions and the key protocol") -/

/-- R11, R84, R105, R109, R97: the oldest received frame commits. A bad header or a stranger's frame is
dropped with its counter and its cells return; a phase 1 SESSION_OPEN waits for the session engine, or is
answered with TOO_LARGE when it is over-long (R89, R128); a well-formed ACK message waits with its payload. -/
def Obligations.CommittedFragmentsGoWhereTheyBelong : Prop :=
  ∀ (s : State) (p : PortId) (since : Nat) (e : RxEnt) (rest : List RxEnt), s.alive → (s.dev.port p).rxq = e :: rest →
    s.dev.resetting .sessionEngine = false → e.act ≠ 1 →
    (hdrBad e.skp (s.dev.ctx (e.skp.hdr.session.toNat % 16384)) = true →
      Completes (.fragmentCommit ⟨p, since⟩) s fun d => (d.port p).rxq = rest ∧
        d.fld Base.ses F.SES_HDR_DROP_COUNT = (s.dev.fld Base.ses F.SES_HDR_DROP_COUNT + 1) % 2 ^ 32 ∧
        d.pool = s.dev.pool - e.cells ∧ d.pool7 = s.dev.pool7 - e.cells7 ∧
        s.dev.OnlyFlds d [(Base.ses, F.SES_HDR_DROP_COUNT)] ∧ d.ses = s.dev.ses ∧ d.disp = s.dev.disp) ∧
    (hdrBad e.skp none = false → s.dev.ctx (e.skp.hdr.session.toNat % 16384) = none →
      e.skp.hdr.opcode.toNat ≠ Op.sessionOpen →
      Completes (.fragmentCommit ⟨p, since⟩) s fun d => (d.port p).rxq = rest ∧
        d.fld Base.ses F.SES_TUPLE_DROP_COUNT = (s.dev.fld Base.ses F.SES_TUPLE_DROP_COUNT + 1) % 2 ^ 32 ∧
        d.pool = s.dev.pool - e.cells ∧ d.ses = s.dev.ses ∧ d.disp = s.dev.disp) ∧
    (hdrBad e.skp (s.dev.ctx (e.skp.hdr.session.toNat % 16384)) = false →
      openPhase e.skp = some 1 → e.skp.hdr.msgLen.toNat ≤ msgLimit Op.sessionOpen →
      Completes (.fragmentCommit ⟨p, since⟩) s fun d => (d.port p).rxq = rest ∧
        (∃ o, d.ses = { s.dev.ses with opens := s.dev.ses.opens ++ [o] } ∧ o.payload = e.skp.payload ∧
          o.port = p ∧ o.ip = e.srcIp ∧ o.udp = e.srcUdp ∧ o.sid = e.skp.hdr.session.toNat % 16384) ∧
        d.pool = s.dev.pool - e.cells ∧ d.regs = s.dev.regs) ∧
    (hdrBad e.skp (s.dev.ctx (e.skp.hdr.session.toNat % 16384)) = false →
      openPhase e.skp = some 1 → msgLimit Op.sessionOpen < e.skp.hdr.msgLen.toNat →
      Completes (.fragmentCommit ⟨p, since⟩) s fun d => (d.port p).rxq = rest ∧
        (∃ x ∈ (d.port p).txq, x.item = .refusal2 St.tooLarge e.skp.hdr.tag.toNat e.skp.hdr.keySpace.toNat
          e.srcIp e.srcUdp) ∧ d.ses = s.dev.ses ∧ d.regs = s.dev.regs) ∧
    (∀ c, s.dev.ctx (e.skp.hdr.session.toNat % 16384) = some c → hdrBad e.skp (some c) = false →
      e.skp.hdr.opcode.toNat = Op.ack → tupleBad c p e = false → tagPrevious c e.skp = false →
      tagCurrent c e.skp = true → hdrBreaches c e.skp.hdr = 0 → fragFits (InMsg.fresh e) e.skp.hdr = true →
      e.skp.hdr.fragCount = 1 → ackShape e = true → c.st ≠ .closing →
      Completes (.fragmentCommit ⟨p, since⟩) s fun d => (d.port p).rxq = rest ∧
        (∃ c', d.ctx (e.skp.hdr.session.toNat % 16384) = some c' ∧
          c'.acks = c.acks ++ [(c.epoch, e.skp.payload)] ∧ c'.paused = false ∧
          c'.rxNext = c.rxNext ∧ c'.st = c.st) ∧
        s.dev.OnlyCtx d (e.skp.hdr.session.toNat % 16384) ∧ d.disp = s.dev.disp ∧ d.sws = s.dev.sws)

/-- R90, R91, R155: a held fragment leaves after REORDER_US; an admitted request that still lacks a
fragment after REASM_MS, no stream part, is answered with BUSY and leaves; a stream none of whose parts
comes is abandoned. -/
def Obligations.MessagesThatStayIncompleteLeave : Prop :=
  ∀ (s : State) (sid seq : Nat) (c : Ctx), s.alive → s.dev.ctx sid = some c →
    (∀ m, c.msg seq = some m → m.cid = none →
      Completes (.reorderTimeout sid seq) s fun d =>
        (∃ c', d.ctx sid = some c' ∧ c'.msg seq = none ∧ c'.out = c.out ∧ c'.st = c.st) ∧
        d.pool = s.dev.pool - (m.held.map (·.c)).sum ∧
        d.fld Base.ses F.SES_REORDER_DROP_COUNT = (s.dev.fld Base.ses F.SES_REORDER_DROP_COUNT + 1) % 2 ^ 32 ∧
        s.dev.OnlyCtx d sid ∧ s.dev.OnlyFlds d [(Base.ses, F.SES_REORDER_DROP_COUNT)] ∧ d.disp = s.dev.disp) ∧
    (∀ m cid q, c.msg seq = some m → m.cid = some cid → s.dev.cmd cid = some q → q.gotAll = false →
      q.answered = false →
      q.op ≠ Op.putStream → q.sid = sid →
      Completes (.reassemblyTimeout sid seq) s fun d =>
        (∃ c', d.ctx sid = some c' ∧ c'.msg seq = none ∧
          ∃ f ∈ c'.out, f.cid = some cid ∧ f.status = St.busy) ∧
        d.fld Base.ses F.SES_REASM_TIMEOUT_COUNT = (s.dev.fld Base.ses F.SES_REASM_TIMEOUT_COUNT + 1) % 2 ^ 32) ∧
    (∀ i x, c.streams[i]? = some x → x.sent < x.whole →
      Completes (.streamTimeout sid i) s fun d =>
        (∃ c', d.ctx sid = some c' ∧ c'.streams =
          c.streams.filter fun y => !(y.space == x.space && y.key == x.key)) ∧
        s.dev.OnlyCtx d sid ∧ d.regs = s.dev.regs ∧ d.irq = s.dev.irq)
/-- R97, R98, R100, R101: with nothing sent on the session, ACK_DELAY queues an ACK message whose payload
names no message; one that lacks a fragment below the highest received is named with the lowest index it
lacks; a received ACK payload releases the sent fragments it names; the resend wait queues the fragment
again, or stops resending after RETRY_MAX tries; a fragment cut by an underrun is queued again. -/
def Obligations.AcknowledgementAndResending : Prop :=
  ∀ (s : State) (sid : Nat) (c : Ctx), s.alive → s.dev.ctx sid = some c →
    (c.ackDue = true → c.st ≠ .opening → s.dev.ackQueued sid c.port = false → c.ackTx ≠ 0xFFFFFFFF →
      Completes (.ackDelayTimer sid) s fun d =>
        (∃ e, (d.port c.port).txq = (s.dev.port c.port).txq ++ [e] ∧ 
          e.item = .ackMsg sid c.epoch c.ackTx (zeros 8)) ∧
        d.ctx sid = some { c with ackTx := nextSeq c.isSealed c.ackTx } ∧
        s.dev.OnlyCtx d sid ∧ s.dev.OnlyPort d c.port ∧ d.regs = s.dev.regs ∧ d.disp = s.dev.disp) ∧
    (∀ seq m, c.msg seq = some m → m.firstMissing < (m.frags.map (·.1)).foldl max 0 → c.ackTx ≠ 0xFFFFFFFF →
      Completes (.partAckTimer sid seq) s fun d =>
        (∃ e b, (d.port c.port).txq = (s.dev.port c.port).txq ++ [e] ∧ e.item = .ackMsg sid c.epoch c.ackTx b ∧
          b.take 6 = be 4 seq ++ be 2 m.firstMissing) ∧
        d.ctx sid = some { c with ackTx := nextSeq c.isSealed c.ackTx } ∧
        s.dev.OnlyCtx d sid ∧ s.dev.OnlyPort d c.port ∧ d.regs = s.dev.regs ∧ d.disp = s.dev.disp) ∧
    (∀ a p rest, c.st ≠ .closing → c.acks = (a, p) :: rest → fieldBe p 0 4 ≠ 0 → 8 ≤ p.length →
      Completes (.ack sid) s fun d =>
        (∃ c', d.ctx sid = some c' ∧ c'.acks = rest ∧
          (∀ f ∈ c.out, f.seq = fieldBe p 0 4 → f.epoch = a → 0 < f.sent → f.idx < fieldBe p 4 2 →
            f ∉ c'.out) ∧
          (∀ f ∈ c.out, (f.seq ≠ fieldBe p 0 4 ∨ f.epoch ≠ a ∨ f.sent = 0) → f ∈ c'.out)) ∧
        s.dev.OnlyCtx d sid ∧ { d with ses := s.dev.ses } = s.dev) ∧
    (∀ seq i old f, c.frag (c.timerEpoch old) seq i = some f → f.sent ≠ 0 → c.paused = false →
      s.dev.fld Base.ses F.SES_TIMER_RTO_RETRY_MAX ≤ f.tries →
      Completes (.rtoTimer sid seq ⟨i, old⟩) s fun d => d.ctx sid = some { c with paused := true } ∧
        s.dev.OnlyCtx d sid ∧ { d with ses := s.dev.ses } = s.dev) ∧
    (∀ seq i old f, c.frag (c.timerEpoch old) seq i = some f → f.sent ≠ 0 → c.paused = false →
      f.tries < s.dev.fld Base.ses F.SES_TIMER_RTO_RETRY_MAX →
      Completes (.rtoTimer sid seq ⟨i, old⟩) s fun d =>
        (∃ e ∈ (d.port c.port).txq, e.item = .skp sid f.epoch f.seq f.idx) ∧
        (∃ c' f', d.ctx sid = some c' ∧ c'.frag (c.timerEpoch old) seq i = some f' ∧ f'.tries = f.tries + 1) ∧
        s.dev.OnlyCtx d sid ∧ s.dev.OnlyPort d c.port ∧ d.regs = s.dev.regs) ∧
    (∀ seq i old f, c.frag (c.timerEpoch old) seq i = some f → f.cut = true →
      Completes (.underrunResend sid seq ⟨i, old⟩) s fun d =>
        (∃ e ∈ (d.port c.port).txq, e.item = .skp sid f.epoch f.seq f.idx) ∧
        s.dev.OnlyPort d c.port ∧ d.withPorts s.dev = s.dev)

/-- R106, R107, R110: a session whose host is silent for IDLE_S, an opening that phase 3 does not finish,
and a closing session whose linger ends, return to FREE; other sessions stay.
R107, R115, R116: SESSION_CLOSE with no other request of the session left, and no refusal unsent, is answered OK and the
context is CLOSING without streams; an acceptable REKEY stands until its answer; REKEY_ANSWER moves the
session to the next epoch, whose keys follow from the old secret (R111), and starts every series again at 1. -/
def Obligations.SessionsCloseAndRekey : Prop :=
  (∀ (s : State) (sid : Nat) (c : Ctx), s.alive → s.dev.ctx sid = some c →
     (c.st ≠ .opening → s.dev.irq.due = [] → Completes (.idleTimeout sid) s fun d => d.ctx sid = none ∧ s.dev.OnlyCtx d sid) ∧
     (c.st = .opening → Completes (.sessionOpenTimeout sid) s fun d =>
       d.ctx sid = none ∧ s.dev.OnlyCtx d sid ∧ d.regs = s.dev.regs ∧ d.disp = s.dev.disp ∧ d.sws = s.dev.sws) ∧
     (c.st = .closing → Completes (.lingerTimeout sid) s fun d => d.ctx sid = none ∧ s.dev.OnlyCtx d sid)) ∧
  (∀ (s : State) (cid : Nat) (q : Cmd) (c : Ctx), s.alive → s.dev.cmd cid = some q → s.dev.ctx q.sid = some c →
     (q.op = Op.sessionClose → q.st = .inSession → s.dev.othersOf q.sid cid = [] → c.refusalWaits = false →
       Completes (.sessionClose cid) s fun d =>
         (∃ c', d.ctx q.sid = some c' ∧ c'.st = .closing ∧ c'.streams = [] ∧
           ∃ f ∈ c'.out, f.cid = some cid ∧ f.status = St.ok) ∧ s.dev.OnlyCtx d q.sid) ∧
     (q.op = Op.rekey → q.st = .inSession → q.gotAll = true → c.isSealed = true → c.epoch ≠ 65535 →
       fieldBe q.payload 0 2 = c.epoch + 1 →
       Completes (.rekey cid) s fun d => d.cmd cid = some { q with st := .running } ∧ d.ses = s.dev.ses ∧
         { d with disp := s.dev.disp } = s.dev) ∧
     (q.op = Op.rekey → q.st = .running → s.dev.othersOf q.sid cid = [] →
       (∀ f ∈ c.out, f.epoch = c.epoch → f.seq = 0) →
       Completes (.rekeyAnswer cid) s fun d =>
         (∃ c', d.ctx q.sid = some c' ∧ c'.epoch = c.epoch + 1 ∧ (∃ p, c'.prev = some p ∧ p.keys = c.keys) ∧
           c'.keys = keysOf (nextSecret c.secret) ∧ c'.rekeyDue = false ∧
           c'.rekeying = false ∧ c'.rxNext = 1 ∧ c'.txNext = 1 ∧ c'.ackTx = 1 ∧ c'.msgs = [] ∧
           ∃ f ∈ c'.out, f.cid = some cid ∧ f.status = St.ok ∧ f.epoch = c.epoch) ∧
         d.fld Base.ses F.SES_REKEY_COUNT = (s.dev.fld Base.ses F.SES_REKEY_COUNT + 1) % 2 ^ 32 ∧
         s.dev.OnlyCtx d q.sid))

/-- R108 to R110, R218: phase 1 of an acceptable SESSION_OPEN takes the named FREE context, whose phase 2
answer goes out; a refused one takes none, counts and raises its source. Phase 3 with a good chain opens
the session under the anchor's profile, with the keys of R111; with a bad one the context returns to FREE. -/
def Obligations.OpeningTakesAContextOrRefuses : Prop :=
  ∀ (s : State) (sid : Nat), s.alive →
    (∀ (draw : OpenDraw) o rest, takeOpen 1 s.dev.ses.opens = some (o, rest) → s.dev.openCtxOf o = none →
      (s.dev.countOpen rest).openRefusal o = none → sid < 16384 → s.dev.ctx sid = none →
      Completes (.sessionOpenPhase1 sid draw) s fun d =>
        (∃ c, d.ctx sid = some c ∧ c.st = .opening ∧ c.port = o.port ∧ c.ip = o.ip ∧ c.udp = o.udp ∧
          c.isSealed = bit (fieldBe o.payload 1 1) 0 ∧ c.admin = bit (fieldBe o.payload 1 1) 1 ∧
          c.rxNext = 1 ∧ c.txNext = 1 ∧ c.epoch = 0 ∧ c.out ≠ []) ∧
        d.ses.opens = rest ∧ s.dev.OnlyCtx d sid ∧ d.regs = s.dev.regs ∧ d.disp = s.dev.disp) ∧
    (∀ (draw : OpenDraw) o rest st, takeOpen 1 s.dev.ses.opens = some (o, rest) → s.dev.openCtxOf o = none →
      (s.dev.countOpen rest).openRefusal o = some st → o.act = 0 →
      Completes (.sessionOpenPhase1 sid draw) s fun d =>
        d.ses.ctx = s.dev.ses.ctx ∧ d.ses.opens = rest ∧
        d.fld Base.ses F.SES_OPEN_FAIL_COUNT = (s.dev.fld Base.ses F.SES_OPEN_FAIL_COUNT + 1) % 2 ^ 32 ∧
        (d.src (shared 0x21)).event = true ∧
        (∃ e, (d.port o.port).txq = (s.dev.port o.port).txq ++ [e] ∧ 
          e.item = .refusal2 st o.tag o.space o.ip o.udp) ∧
        d.disp = s.dev.disp) ∧
    (∀ (v : ChainVerdict) o rest c, takeOpen 3 (s.dev.ses.opens.filter fun x => x.sid == sid) = some (o, rest) →
      s.dev.ctx sid = some c → c.st = .opening → c.p4 = [] → phase3Ok o = true →
      (∀ prof, s.dev.openPasses c v = some prof →
        Completes (.sessionOpenPhase3 sid v) s fun d =>
          (∃ c', d.ctx sid = some c' ∧ c'.st = .opened ∧ c'.profile = prof ∧
            (c'.p4.map (·.payload)).flatten = be 1 4 ++ be 1 prof ++ zeros 2 ∧
            c'.keys = keysOf (if c.isSealed then sessionSecret c o.payload else [])) ∧
          d.fld Base.ses F.SES_OPEN_OK_COUNT = (s.dev.fld Base.ses F.SES_OPEN_OK_COUNT + 1) % 2 ^ 32 ∧
          s.dev.OnlyCtx d sid ∧ d.disp = s.dev.disp) ∧
      (s.dev.openPasses c v = none →
        Completes (.sessionOpenPhase3 sid v) s fun d =>
          d.ctx sid = none ∧ s.dev.OnlyCtx d sid ∧
          d.fld Base.ses F.SES_OPEN_FAIL_COUNT = (s.dev.fld Base.ses F.SES_OPEN_FAIL_COUNT + 1) % 2 ^ 32 ∧
          (d.src (shared 0x21)).event = true ∧ d.disp = s.dev.disp))

/-- R120 to R125, R201 to R204: QUEUE_RESET of its own session reaches its reset point, where no stream is
open, and its markers go out to the swaths that hold commands; a marker that arrives at a swath leaves the
list; when no marker and no command of the target is left, an open target, or a frozen one that an admin session
releases (R119), is OPEN again, expects RESUME_SEQ, and the answer goes out. -/
def Obligations.QueueResetStopsAndResumesASession : Prop :=
  ∀ (s : State) (cid : Nat) (q : Cmd) (t : Ctx), s.alive → s.dev.cmd cid = some q → q.op = Op.queueReset →
    (q.st = .inSession → q.gotAll = true → q.resume = 0 → (∀ i x, i ≠ q.sid → s.dev.ctx i = some x → x.resetBy = none) →
      fieldBe q.payload 0 2 % 16384 = q.sid → s.dev.ctx q.sid = some t →
      t.st ≠ .closing → t.st ≠ .opening → t.resetBy = none →
      Completes (.queueReset cid) s fun d =>
        (∃ t', d.ctx q.sid = some t' ∧ t'.streams = [] ∧ t'.resetBy = some cid ∧ t'.st = t.st) ∧
        (∃ q', d.cmd cid = some q' ∧ q'.st = .running ∧ q'.target = q.sid ∧
          q'.resume = nextSeq t.isSealed q.seq) ∧ s.dev.OnlyCtx d q.sid) ∧
    (q.st = .inSession → q.gotAll = true → q.resume ≠ 0 → s.dev.ctx (fieldBe q.payload 0 2 % 16384) = some t →
      t.resetBy = some cid →
      Completes (.queueReset cid) s fun d =>
        d.cmd cid = some { q with st := .running, markers := s.dev.swathsOf (fieldBe q.payload 0 2 % 16384) } ∧
        { d with disp := s.dev.disp } = s.dev) ∧
    (∀ n, n ∈ q.markers → s.dev.swFrozen n = false → s.dev.resetting (.swath n) = false →
      Completes (.abortMarkerArrive n cid) s fun d =>
        (∃ q', d.cmd cid = some q' ∧ q'.markers = q.markers.filter (· != n) ∧ q.aborted ≤ q'.aborted) ∧
        d.boot = s.dev.boot ∧ d.pw = s.dev.pw ∧ d.adm = s.dev.adm ∧ d.cal = s.dev.cal) ∧
    (q.st = .running → s.dev.resetWaits q cid = false → q.target = q.sid → s.dev.ctx q.sid = some t →
      t.resetBy = some cid → t.msgs = [] → (t.st = .opened ∨ t.st = .frozen ∧ t.admin = true) →
      Completes (.queueResetAnswer cid) s fun d =>
        (∃ t', d.ctx q.sid = some t' ∧ t'.st = .opened ∧ t'.resetBy = none ∧
          ∃ f ∈ t'.out, f.cid = some cid ∧ f.status = St.ok) ∧ s.dev.OnlyCtx d q.sid)
/-! ### Reads (chapter "Key-value commands") -/

/-- R72, R144, R148, R150, R165: a GET whose key the front cache holds is answered from it; a GET or
GET_RANGE of a short value is answered by its swath with the value block and the bytes of its range, a
HEAD with the block alone; a key that is not there is NOT_FOUND. -/
def Obligations.ReadsAreAnsweredWithTheirSnapshot : Prop :=
  ∀ (s : State) (cid : Nat) (q : Cmd) (c : Ctx), s.alive → s.dev.cmd cid = some q → s.dev.ctx q.sid = some c →
    (∀ e, q.op = Op.get → s.dev.fcHit cid q = some e → q.block.ifVersion = false →
      Completes (.get cid) s fun d => s.dev.Answered d cid St.ok e.answer ∧
        d.fld Base.dsp F.DSP_FC_HITS_COUNT = (s.dev.fld Base.dsp F.DSP_FC_HITS_COUNT + 1) % 2 ^ 32) ∧
    (∀ sn, q.snap = some sn → q.readReady = true → s.dev.swRuns sn.swath = true → q.started = false →
      q.respSeqs = [] → sn.found = true → sn.recBad = false → sn.lost = [] → sn.value.length = sn.length →
      sn.length ≤ 4194304 → q.block.ifVersion = false → s.dev.unsentOf q.sid cid = [] →
      (q.op = Op.get → s.dev.fcHit cid q = none →
        Completes (.get cid) s fun d =>
          s.dev.Answered d cid St.ok (valueBlock sn 0 sn.length ++ sn.value) ∧ d.boot = s.dev.boot) ∧
      (q.op = Op.getRange → q.block.offset ≤ sn.length → q.block.len ≠ 0xFFFFFFFF →
        Completes (.getRange cid) s fun d =>
          s.dev.Answered d cid St.ok
            (valueBlock sn q.block.offset (min q.block.len (sn.length - q.block.offset)) ++
              (sn.value.drop q.block.offset).take q.block.len) ∧ d.boot = s.dev.boot) ∧
      (q.op = Op.head →
        Completes (.head cid) s fun d =>
          s.dev.Answered d cid St.ok (valueBlock sn 0 0) ∧ d.boot = s.dev.boot)) ∧
    (∀ sn, q.snap = some sn → q.readReady = true → s.dev.swRuns sn.swath = true → q.started = false →
      sn.found = false →
      (q.op = Op.get → s.dev.fcHit cid q = none →
        Completes (.get cid) s fun d => s.dev.Answered d cid St.notFound []) ∧
      (q.op = Op.getRange → Completes (.getRange cid) s fun d => s.dev.Answered d cid St.notFound []) ∧
      (q.op = Op.head → Completes (.head cid) s fun d => s.dev.Answered d cid St.notFound []))

/-- R164, R166: an admitted LIST is answered with the entries its scan finds from the cursor on, in a body of at
most 4,194,304 bytes; when every slot from the cursor on can be read and no key there has lost its record, it
completes with OK and at most LEN entries.
R331, R332, R334: a sheaf whose tag verifies is released and counted, and changes nothing else of the drive
while sheaves remain; one whose tag fails, with no other copy to serve, is remembered with its key's version,
counted, raised and recorded, and ends the response. -/
def Obligations.ListsAnswerAndSheavesOpen : Prop :=
  (∀ (s : State) (cid : Nat) (q : Cmd) (c : Ctx), s.alive → s.dev.cmd cid = some q → s.dev.ctx q.sid = some c →
     q.op = Op.list → q.st = .running → q.gotAll = true →
     (Completes (.list cid) s fun d =>
       s.dev.Answered d cid (s.dev.listScan q).status (s.dev.listScan q).body ∧
       (s.dev.listScan q).body.length ≤ 4194304 ∧ d.boot = s.dev.boot ∧ d.adm = s.dev.adm) ∧
     ((∀ t, t < 256 → q.cursor / 2 ^ 56 ≤ t → (s.dev.listSources q.space t).isSome = true) →
      (∀ n, ∀ k ∈ (s.dev.sw n).keys, k.space = q.space → (s.dev.sw n).recLost k = false) →
      Completes (.list cid) s fun d =>
        s.dev.Answered d cid St.ok (s.dev.listScan q).body ∧ (s.dev.listScan q).count ≤ q.block.len)) ∧
  (∀ (s : State) (n : Fin 16) (cid : Nat) (q : Cmd) (sn : Snap) (i : Nat), s.alive → s.dev.cmd cid = some q →
     q.snap = some sn → sn.swath = n → s.dev.swRuns n = true → (q.op = Op.get ∨ q.op = Op.getRange) →
     q.started = true → q.failed = false → sn.recBad = false →
     q.opened < sheafSpan (q.range sn.length).1 (q.range sn.length).2 →
     i = (q.range sn.length).1 / 4096 + q.opened → i ∉ sn.lost →
     (q.answered = true → s.dev.unsentOf q.sid cid ≠ []) →
     (s.dev.snapOpens n q sn i = true → sn.tried = none → Completes (.sheafOpen n cid true) s fun d =>
       d.cmd cid = some { q with opened := q.opened + 1 } ∧
       d.fld (Base.sw n) F.SW_CIP_OPEN_COUNT = (s.dev.fld (Base.sw n) F.SW_CIP_OPEN_COUNT + 1) % 2 ^ 32 ∧
       ((q.answered = false ∨ q.opened + 1 < sheafSpan (q.range sn.length).1 (q.range sn.length).2) →
         s.dev.OnlyRegsSrcs { d with disp := s.dev.disp } [(Base.sw n, F.SW_CIP_OPEN_COUNT)] [privSw n 16]) ∧
       d.sws = s.dev.sws ∧ d.ses = s.dev.ses) ∧
     (s.dev.snapOpens n q sn i = true → ∀ t, sn.tried = some t → Completes (.sheafOpen n cid true) s fun d =>
       ∃ q', d.cmd cid = some q' ∧ q'.opened = q.opened + 1) ∧
     (∀ ok c, (ok && s.dev.snapOpens n q sn i) = false → sn.tried.map (·.2) = some i →
       s.dev.ctx q.sid = some c →
       Completes (.sheafOpen n cid ok) s fun d =>
         (∃ c', d.ctx q.sid = some c' ∧ ∃ f ∈ c'.out, f.cid = some cid ∧ f.status = St.mediaAuthFail) ∧
         (s.dev.unsentOf q.sid cid = [] →
           ∃ g, s.dev.Answered d cid St.mediaAuthFail (failureBlock 0 0 i g)) ∧
         d.fld (Base.sw n) F.SW_CIP_AUTH_FAIL_COUNT =
           (s.dev.fld (Base.sw n) F.SW_CIP_AUTH_FAIL_COUNT + 1) % 2 ^ 32 ∧
         (d.src (privSw n 13)).event = true ∧ s.dev.Reported d 0x0601 (Unit.swath n) 3 i q.hash.toNat ∧
         (∀ k, (s.dev.sw n).find q.space q.key = some k → k.version = sn.version →
           ∃ k', (d.sw n).find q.space q.key = some k' ∧ i ∈ k'.badSheaves) ∧ d.boot = s.dev.boot))

/-! ### Ordering (chapter "Ordering, completion and durability") -/

/-- R132, R137, R174 to R177, R248: the first command in the dispatcher's order whose pattern result is
there and that no test refuses takes a tag, a slot on each owner and, for a write, the next admission
number, and passes to its owners; a LIST takes a tag and runs. While the key space is being erased (R171) or
the drive shuts down it is answered BUSY. One that waits for a tag or a slot too long is answered BUSY.
R175, R180 to R182, R234: the first command on the hedgerow joins its swath's chain; the one that
starts next becomes eligible, and a read passes its order point with its snapshot; QPRIO rises one step
for a command that has waited. -/
def Obligations.AdmissionAndChains : Prop :=
  (∀ (s : State) (cid : Nat) (q : Cmd) (x : Ctx), s.alive → s.dev.cmd cid = some q → s.dev.ctx q.sid = some x →
     (∀ rest, s.dev.disp.wait = cid :: rest → (q.rule.isSome = true ∨ q.op = Op.list) →
       s.dev.pw.pfActive = false → s.dev.resetting .dispatcher = false →
       (s.dev.eraseHolds q.space = true ∨ s.dev.shutting = true) →
       Completes .dispatchAdmit s fun d => s.dev.Answered d cid St.busy [] ∧ d.boot = s.dev.boot) ∧
     (∀ rest, s.dev.disp.wait = cid :: rest → q.op = Op.list → s.dev.pw.pfActive = false →
       s.dev.resetting .dispatcher = false → s.dev.eraseHolds q.space = false → s.dev.shutting = false →
       s.dev.slotsFree (s.dev.listOwners q.space (256 - q.listFrom) q.listFrom []) = true →
       Completes .dispatchAdmit s fun d =>
         (∃ q', d.cmd cid = some q' ∧ q'.st = .running ∧ q'.hasTag = true) ∧
         d.disp.tags = s.dev.disp.tags + 1 ∧ cid ∉ d.disp.wait ∧ { d with disp := s.dev.disp } = s.dev) ∧
     (∀ rest ns, s.dev.disp.wait = cid :: rest → q.rule.isSome = true → q.op ≠ Op.list →
       s.dev.pw.pfActive = false → s.dev.resetting .dispatcher = false →
       s.dev.eraseHolds q.space = false → s.dev.shutting = false → streamBusy x q = false →
       s.dev.ownersOf q = some ns → s.dev.slotsFree ns = true →
       ((isWrite q.op = true ∨ q.op = Op.discardSecure) → ∀ n ∈ ns, (s.dev.sw n).fallow = false) →
       (isWrite q.op = true → ∀ n ∈ ns,
         q.charges.1 ≤ lookD n.val 0 s.dev.disp.lfree ∧ (q.charges.2 : Int) ≤ s.dev.pfreeOf n) →
       Completes .dispatchAdmit s fun d =>
         (∃ q', d.cmd cid = some q' ∧ q'.st = .reserved ∧ q'.owners = ns ∧ q'.hasTag = true ∧ q'.slotsOn = ns ∧
           q'.ver = (if isWrite q.op then s.dev.disp.admNum else 0)) ∧
         d.disp.admNum = (if isWrite q.op then s.dev.disp.admNum + 1 else s.dev.disp.admNum) ∧
         d.disp.tags = s.dev.disp.tags + 1 ∧ cid ∉ d.disp.wait ∧
         d.disp.inbound = s.dev.disp.inbound ++ ns.map (fun n => (n, cid)) ∧
         d.sws = s.dev.sws ∧ d.boot = s.dev.boot) ∧
     (q.st = .waitRes → Completes (.waitResTimeout cid) s fun d => s.dev.Answered d cid St.busy [] ∧
       d.boot = s.dev.boot ∧ (q.slotsOn = [] → q.pieces = [] → q.units = [] → d.sws = s.dev.sws))) ∧
  (∀ (s : State) (n : Fin 16) (cid : Nat) (q : Cmd), s.alive → s.dev.cmd cid = some q →
     s.dev.swRuns n = true →
     ((∃ e, s.dev.disp.inbound.find? (fun e => e.1 == n) = some e ∧ e.2 = cid) → q.midPart = false →
       Completes (.hazardArrive n) s fun d =>
         (d.sw n).haz = (s.dev.sw n).haz ++ [⟨.cmd cid, q.space, q.hash⟩] ∧
         (∃ q', d.cmd cid = some q' ∧ q'.arrived = q.arrived ++ [n] ∧ (q.st ≠ .running → q'.st = .chained)) ∧
         d.disp.inbound = s.dev.disp.inbound.erase (n, cid) ∧ s.dev.OnlySwath d n ∧ d.regs = s.dev.regs) ∧
     (firstByPrio (s.dev.startable n) = some (cid, q) → ∀ recOk,
       Completes (.chainEligible n cid ⟨recOk, []⟩) s fun d =>
         (∃ q', d.cmd cid = some q' ∧ q'.eligible = q.eligible ++ [n] ∧
           (isRead q.op = true → q'.snap.isSome = true ∧ q'.passed = q.passed ++ [n])) ∧
         (∀ m, m ≠ n → (d.sw m).keys = (s.dev.sw m).keys ∧ (d.sw m).map = (s.dev.sw m).map ∧
           (d.sw m).units = (s.dev.sw m).units) ∧ d.ses = s.dev.ses) ∧
     ((∃ e ∈ s.dev.startable n, e.1 = cid) →
       Completes (.qprioAge n cid) s fun d => d.cmd cid = some { q with age := 1 } ∧
         { d with disp := s.dev.disp } = s.dev))

/-! ### Writes, removals and holds at a swath -/

/-- R139, R143, R179, R184, R192, R193, R252, R288: at its order point a whole-value write whose data is
buffered and that no test refuses switches the index: the key holds the value sent, under the write's
admission number, stamped with its admission, retained to the later of its STAMP and the pattern's. On a
single owner the write is answered OK. The same holds of WRITE_COMPLETE, and of the copy that switches
alone, which then runs ahead.
R152, R154: a part of a stream other than the last is answered OK once it is buffered on every owner,
and the stream keeps its bytes. -/
def Obligations.WholeWritesAndStreamParts : Prop :=
  (∀ (s : State) (n : Fin 16) (cid : Nat) (al : Alloc) (q : Cmd) (c : Ctx), s.alive → s.dev.cmd cid = some q →
     s.dev.ctx q.sid = some c → q.runsAt n = true → q.buffered n = true → s.dev.swRuns n = true →
     s.dev.judge q false = none → q.owners = [n] → q.slotsOn = [n] → q.passed = [] →
     ((s.dev.sw n).spotFor ((s.dev.sw n).matched q.space q.key q.hash) q.hash).isSome = true →
     s.dev.HasRoom n q.space q.key ((s.dev.sw n).matched q.space q.key q.hash) →
     (s.dev.isPaired q = false →
       (q.op = Op.put → Completes (.put n cid al) s fun d =>
         (∃ k, (d.sw n).find q.space q.key = some k ∧ k.value = q.data.take q.len ∧ k.version = q.ver ∧
           k.written = q.admStamp ∧ k.retain = max q.block.stamp q.patternStamp ∧ k.ahead = false) ∧
         (∃ c', d.ctx q.sid = some c' ∧ ∃ f ∈ c'.out, f.cid = some cid ∧ f.status = St.ok) ∧
         s.dev.OnlySwath d n) ∧
       (q.op = Op.casPut → Completes (.casPut n cid al) s fun d =>
         (∃ k, (d.sw n).find q.space q.key = some k ∧ k.value = q.data.take q.len ∧ k.version = q.ver ∧
           k.written = q.admStamp ∧ k.retain = max q.block.stamp q.patternStamp) ∧
         (∃ c', d.ctx q.sid = some c' ∧ ∃ f ∈ c'.out, f.cid = some cid ∧ f.status = St.ok) ∧
         s.dev.OnlySwath d n) ∧
       (q.op = Op.put → Completes (.writeComplete n cid al none) s fun d =>
         (∃ k, (d.sw n).find q.space q.key = some k ∧ k.value = q.data.take q.len ∧ k.version = q.ver) ∧
         s.dev.OnlySwath d n)) ∧
     (s.dev.isPaired q = true → q.op = Op.put → Completes (.pairOneCopySwitch n cid al) s fun d =>
       (∃ k, (d.sw n).find q.space q.key = some k ∧ k.value = q.data.take q.len ∧ k.version = q.ver ∧
         k.ahead = true) ∧ s.dev.OnlySwath d n)) ∧
  (∀ (s : State) (n : Fin 16) (cid : Nat) (al : Alloc) (q : Cmd) (c : Ctx) (x : Stream), s.alive →
     s.dev.cmd cid = some q → s.dev.ctx q.sid = some c → q.op = Op.putStream → q.midPart = true →
     q.runsAt n = true → s.dev.swRuns n = true → q.buffered n = true → q.owners = [n] → q.slotsOn = [n] →
     c.streams = [x] → x.space = q.space → x.key = q.key → cid ∈ x.parts →
     Completes (.putStream n cid al) s fun d =>
       (∃ c', d.ctx q.sid = some c' ∧
         c'.streams = [{ x with data := streamValue x q, parts := x.parts.filter (· != cid) }] ∧
         ∃ f ∈ c'.out, f.cid = some cid ∧ f.status = St.ok) ∧
       s.dev.OnlySwath d n ∧ s.dev.OnlyCtx d q.sid)

/-- R160, R190, R329: a range write lays its bytes over the old value: WRITE_RANGE at its OFFSET, APPEND
at the value's end. The key keeps its RETAIN_UNTIL. A piece before the last moves the same way, and the
command waits for the next. -/
def Obligations.RangeWritesOverlayTheOldValue : Prop :=
  ∀ (s : State) (n : Fin 16) (cid : Nat) (al : Alloc) (q : Cmd) (c : Ctx) (k : KeyEnt), s.alive →
    s.dev.cmd cid = some q → s.dev.ctx q.sid = some c → q.runsAt n = true → s.dev.swRuns n = true →
    s.dev.isPaired q = false → q.owners = [n] → q.slotsOn = [n] → q.pieces = [] → s.dev.judge q false = none →
    (s.dev.sw n).find q.space q.key = some k → (∀ i < sheavesOf k.value.length, s.dev.sheafOpens k i = true) → k.extents.length ≤ 64 →
    0 < q.len → q.len ≤ q.data.length → s.dev.HasRoom n q.space q.key (some k) →
    (q.buffered n = true → q.len ≤ 1048576 → q.op = Op.writeRange →
      Completes (.writeRange n cid al true) s fun d =>
        (∃ k', (d.sw n).find q.space q.key = some k' ∧
          k'.value = overlay k.value q.block.offset (q.data.take q.len) ∧ k'.version = q.ver ∧
          k'.retain = k.retain) ∧ s.dev.OnlySwath d n) ∧
    (q.buffered n = true → q.len ≤ 1048576 → q.op = Op.append →
      Completes (.append n cid al true) s fun d =>
        (∃ k', (d.sw n).find q.space q.key = some k' ∧
          k'.value = overlay k.value k.value.length (q.data.take q.len) ∧ k'.version = q.ver ∧
          k'.retain = k.retain) ∧ s.dev.OnlySwath d n) ∧
    (1048576 < q.len → q.gotAll = true → unitsFor 1048576 ≤ lookD n.val 0 q.taken →
      q.op = Op.writeRange →
      Completes (.rangePieceSwitch n cid al true) s fun d =>
        (∃ k', (d.sw n).find q.space q.key = some k' ∧
          k'.value = overlay k.value q.block.offset (q.data.take 1048576) ∧ k'.version = q.ver) ∧
        (∃ q', d.cmd cid = some q' ∧ lookD n.val 0 q'.pieces = 1) ∧ s.dev.OnlySwath d n)

/-- R156, R163, R255, R258, R311: a removal takes the key out and leaves its tombstone; DISCARD_SECURE
also notes what is still to be overwritten. HOLD sets or clears HELD, or extends retention, and leaves the
value.
R312: once the first message is sent and no read pins the key, its copies in packing pages, buffer units and the
flush area are overwritten; when every part is wiped, every target superblock erased and no fragment retained, the second
message repeats the key result. -/
def Obligations.RemovalsHoldsAndSecureDiscards : Prop :=
  (∀ (s : State) (n : Fin 16) (cid : Nat) (al : Alloc) (q : Cmd) (c : Ctx) (k : KeyEnt), s.alive →
     s.dev.cmd cid = some q → s.dev.ctx q.sid = some c → q.runsAt n = true → s.dev.swRuns n = true →
     q.owners = [n] → q.slotsOn = [n] → s.dev.judge q false = none →
     (s.dev.sw n).find q.space q.key = some k → s.dev.HasRoom n q.space q.key (some k) →
     ((s.dev.sw n).fallow = true → (s.dev.sw n).metaRoom = true) →
     (q.op = Op.delete → Completes (.delete n cid al) s fun d =>
       (d.sw n).find q.space q.key = none ∧
       (∃ t ∈ (d.sw n).tombs, t.space = k.space ∧ t.key = k.key ∧ t.version = k.version) ∧
       (∃ c', d.ctx q.sid = some c' ∧ ∃ f ∈ c'.out, f.cid = some cid ∧ f.status = St.ok) ∧ s.dev.OnlySwath d n) ∧
     (q.op = Op.discardSecure → Completes (.discardSecure n cid al) s fun d =>
       (d.sw n).find q.space q.key = none ∧
       (∃ x ∈ (d.sw n).discards, x.cid = cid ∧ x.space = q.space ∧ x.key = q.key ∧ x.begun = true ∧
         x.wiped = false) ∧
       (∃ c', d.ctx q.sid = some c' ∧ ∃ f ∈ c'.out, f.cid = some cid ∧ f.status = St.ok) ∧
       (∀ m, m ≠ n → (∀ x ∈ (s.dev.sw m).discards, x.cid ≠ cid) → d.sw m = s.dev.sw m)) ∧
     (q.op = Op.hold → Completes (.hold n cid al) s fun d =>
       (∃ k', (d.sw n).find q.space q.key = some k' ∧ k'.value = k.value ∧ k'.version = k.version ∧
         (q.block.aux = 1 → k'.held = true) ∧
         (q.block.aux = 3 → k'.retain = max k.retain q.block.stamp)) ∧ s.dev.OnlySwath d n)) ∧
  (∀ (s : State) (n : Fin 16) (cid : Nat), s.alive →
     (∀ x, (s.dev.sw n).discards.find? (fun x => x.cid == cid && x.begun && !x.wiped) = some x →
       s.dev.pinned n x.space x.key = false → s.dev.swRuns n = true →
       Completes (.secureDiscardOverwrite n cid) s fun d =>
         (∀ y ∈ (d.sw n).discards, y.cid = cid → y.wiped = true) ∧
         (∀ u ∈ (d.sw n).units, u.2.space = x.space → u.2.key = x.key → u.2.early = false →
           x.version < u.2.ver) ∧
         (∀ p ∈ (d.sw n).pack, ∀ i ∈ p.2.items, i.1 = x.space → i.2.1 = x.key → x.version < i.2.2.1) ∧
         (d.sw n).keys = (s.dev.sw n).keys ∧ s.dev.OnlySwath d n ∧ { d with sws := s.dev.sws } = s.dev) ∧
     (∀ q c, s.dev.cmd cid = some q → s.dev.ctx q.sid = some c → q.op = Op.discardSecure → q.started = true →
       q.answered = false →
       (∃ m, ∃ x ∈ (s.dev.sw m).discards, x.cid = cid) →
       (∀ m, ∀ x ∈ (s.dev.sw m).discards, x.cid = cid → x.wiped = true ∧ x.targets = []) →
       s.dev.stillRetained q.space q.hash = false →
       Completes (.secureDiscardComplete cid) s fun d =>
         s.dev.Answered d cid St.ok q.result ∧ ∀ m, ∀ x ∈ (d.sw m).discards, x.cid ≠ cid))

/-- R192, R269: a copy that has buffered a paired write reports ready, and with both the switch order is
out; the copy that is ahead gives the lagging one its value, and is no longer ahead. -/
def Obligations.PairedCopiesReportAndCatchUp : Prop :=
  ∀ (s : State) (n : Fin 16), s.alive →
    (∀ cid q, s.dev.cmd cid = some q → isWrite q.op = true → q.midPart = false → s.dev.isPaired q = true →
      q.runsAt n = true → q.buffered n = true → n ∉ q.ready → s.dev.swRuns n = true →
      Completes (.pairReadyReport n cid) s fun d =>
        d.cmd cid = some { q with
          ready := q.ready ++ [n]
          ordered := q.ordered || (q.owners.length == 2 && q.owners.all (q.ready ++ [n]).contains) } ∧
        { d with disp := s.dev.disp } = s.dev) ∧
    (∀ space key al k m, (s.dev.slot (hashSlot (s.dev.keyedHash space key))).owner = n →
      (s.dev.slot (hashSlot (s.dev.keyedHash space key))).partner = m → m ≠ n → s.dev.online n = true →
      s.dev.online m = true → s.dev.chainClear n space (s.dev.keyedHash space key) = true →
      s.dev.chainClear m space (s.dev.keyedHash space key) = true → (s.dev.sw n).ring.length < ringCap →
      (s.dev.sw n).find space key = some k → k.ahead = true → (s.dev.sw m).find space key = none →
      (s.dev.sw n).recLost k = false → s.dev.HasRoom m space key (some k) →
      ((s.dev.sw m).place k.hash).isSome = true → k.value.length ≤ lookD m.val 0 s.dev.disp.lfree →
      (physOf k.value.length : Int) ≤ s.dev.pfreeOf m → 0 < lookD m.val 0 s.dev.disp.kfree →
      Completes (.pairCatchup n space key al) s fun d =>
        (∃ k', (d.sw m).find space key = some k' ∧ k'.value = k.value ∧ k'.version = k.version ∧
          k'.ahead = false) ∧
        (∃ k', (d.sw n).find space key = some k' ∧ k'.value = k.value ∧ k'.ahead = false) ∧
        (∀ i, i ≠ n → i ≠ m → d.sw i = s.dev.sw i))

/-! ### The policy matcher (chapter "Policy matcher") -/

/-- R222, R223, R225, Table 6-3: INVALIDATE and VALIDATE change VALID of one entry, WRITE puts the
staging words there as an invalid entry, SHIFT_UP and SHIFT_DOWN become busy with the entries between;
each move takes one entry one place on and leaves its source invalid, and the last one ends BUSY. A write
over a valid entry and a number that is no command are refused with their cause. -/
def Obligations.MatchEntriesAreChangedByCommands : Prop :=
  ∀ (s : State) (frm upTo : Fin 4096), s.alive →
    (s.dev.flag Base.pol F.POL_TC_STAT_BUSY = false →
      Completes (.tcInvalidate frm) s (fun d => d.tcEnt frm = { s.dev.tcEnt frm with valid := false } ∧
        (∀ j, j ≠ frm.val → d.tcEnt j = s.dev.tcEnt j) ∧
        { d with pol := { d.pol with tc := s.dev.pol.tc } } = s.dev) ∧
      Completes (.tcValidate frm) s (fun d => d.tcEnt frm = { s.dev.tcEnt frm with valid := true } ∧
        (∀ j, j ≠ frm.val → d.tcEnt j = s.dev.tcEnt j) ∧
        { d with pol := { d.pol with tc := s.dev.pol.tc } } = s.dev) ∧
      ((s.dev.tcEnt frm).valid = false →
        Completes (.tcWrite frm) s fun d => d.tcEnt frm = s.dev.stagedEntry ∧
          (∀ j, j ≠ frm.val → d.tcEnt j = s.dev.tcEnt j) ∧
          { d with pol := { d.pol with tc := s.dev.pol.tc } } = s.dev) ∧
      (frm < upTo → (s.dev.tcEnt upTo).valid = false →
        Completes (.tcShiftUp frm upTo) s fun d =>
          d.pol.shift = some ⟨true, frm, upTo, upTo - 1, upTo - frm⟩ ∧
          d.fld Base.pol F.POL_TC_STAT_BUSY = 1 ∧ s.dev.OnlyFlds d [(Base.pol, F.POL_TC_STAT_BUSY)] ∧
          { d with regs := s.dev.regs, pol := { d.pol with shift := s.dev.pol.shift } } = s.dev) ∧
      (frm < upTo → (s.dev.tcEnt frm).valid = false →
        Completes (.tcShiftDown frm upTo) s fun d =>
          d.pol.shift = some ⟨false, frm, upTo, frm + 1, upTo - frm⟩ ∧
          d.fld Base.pol F.POL_TC_STAT_BUSY = 1 ∧ s.dev.OnlyFlds d [(Base.pol, F.POL_TC_STAT_BUSY)] ∧
          { d with regs := s.dev.regs, pol := { d.pol with shift := s.dev.pol.shift } } = s.dev)) ∧
    ((s.dev.tcEnt frm).valid = true →
      Completes (.tcWrite frm) s fun d => d.fld Base.pol F.POL_TC_STAT_CAUSE = 1 ∧
        d.fld Base.pol F.POL_TC_STAT_ERR = 1 ∧
        s.dev.OnlyRegsSrcs d [(Base.pol, F.POL_TC_STAT_CAUSE), (Base.pol, F.POL_TC_STAT_ERR)] [0x28]) ∧
    (∀ op : BitVec 3, op.toNat = 0 ∨ 6 ≤ op.toNat →
      Completes (.tcCmdInvalid op frm upTo) s fun d =>
        d.fld Base.pol F.POL_TC_STAT_CAUSE = (if s.dev.flag Base.pol F.POL_TC_STAT_BUSY then 3 else 5) ∧
        d.fld Base.pol F.POL_TC_STAT_ERR = 1 ∧
        s.dev.OnlyRegsSrcs d [(Base.pol, F.POL_TC_STAT_CAUSE), (Base.pol, F.POL_TC_STAT_ERR)] [0x28]) ∧
    (∀ sh, s.dev.pol.shift = some sh → (sh.up = true ∨ 0 < sh.src) →
      Completes .tcShiftMove s fun d =>
        d.tcEnt (if sh.up then sh.src + 1 else sh.src - 1) = s.dev.tcEnt sh.src ∧
        d.tcEnt sh.src = { s.dev.tcEnt sh.src with valid := false } ∧
        (∀ j, j ≠ sh.src → j ≠ (if sh.up then sh.src + 1 else sh.src - 1) → d.tcEnt j = s.dev.tcEnt j) ∧
        d.pol.shift = (if sh.left ≤ 1 then none else
          some { sh with src := if sh.up then sh.src - 1 else sh.src + 1, left := sh.left - 1 }) ∧
        (sh.left ≤ 1 → d.fld Base.pol F.POL_TC_STAT_BUSY = 0) ∧
        s.dev.OnlyFlds d [(Base.pol, F.POL_TC_STAT_BUSY)] ∧
        { d with regs := s.dev.regs, pol := { d.pol with tc := s.dev.pol.tc, shift := s.dev.pol.shift } } = s.dev)

/-- R238, R240, R603, Tables 6-9 and 6-11: a write of a data register goes to the word its address
register names on the same path, with the word's reserved bits 0, and any access steps that address: WORD 22 goes to word 0 of the next
entry, and the last word of a bank to word 0. An active bank takes only the writes R240 allows.
R226, R231, R238, R239, R241: a bank swap is refused with its cause or waits, and takes effect when
no lane runs; a test runs the test key as it stands at GO in the shadow bank's set, and gives its result once
it has had a lane. A write of LEN resets the pointer of the test key. -/
def Obligations.MatcherWindowsAndBanksAct : Prop :=
  (∀ (s : State) (path : ReqPath), s.alive →
     (∀ w, Completes (.tcDataAccess path w) s fun d =>
       (bitsOf (d.pathReg path Addr.tcAddr) 0 5 =
         if bitsOf (s.dev.pathReg path Addr.tcAddr) 0 5 < 22 then bitsOf (s.dev.pathReg path Addr.tcAddr) 0 5 + 1
         else 0) ∧
       (bitsOf (d.pathReg path Addr.tcAddr) 5 12 =
         (bitsOf (s.dev.pathReg path Addr.tcAddr) 5 12 +
           if bitsOf (s.dev.pathReg path Addr.tcAddr) 0 5 < 22 then 0 else 1) % 4096) ∧
       (∀ v, w = some v → bitsOf (s.dev.pathReg path Addr.tcAddr) 0 5 ≤ 21 →
         lookD (bitsOf (s.dev.pathReg path Addr.tcAddr) 0 5) 0 d.pol.stage =
           v &&& tcMask (bitsOf (s.dev.pathReg path Addr.tcAddr) 0 5)) ∧
       (∀ k, (w = none ∨ k ≠ bitsOf (s.dev.pathReg path Addr.tcAddr) 0 5) →
         lookD k 0 d.pol.stage = lookD k 0 s.dev.pol.stage) ∧
       (∀ q, q ≠ path → d.pathReg q Addr.tcAddr = s.dev.pathReg q Addr.tcAddr) ∧
       { d with prs := s.dev.prs, pol := { d.pol with stage := s.dev.pol.stage } } = s.dev) ∧
     (∀ a at_ w, a = s.dev.pathReg path Addr.paAddr → at_ = bitsOf a 0 22 →
       (w = none ∨ (∃ v, w = some v ∧ a.getLsbD 23 = false ∧ at_ ≤ 0x22553F)) →
       Completes (.paDataAccess path w) s fun d =>
         bitsOf (d.pathReg path Addr.paAddr) 0 22 = (if at_ = 0x22553F then 0 else (at_ + 1) % 2 ^ 22) ∧
         (∀ v, w = some v → paWord d.shadowBank at_ = v &&& paMask at_) ∧
         (∀ k, (w = none ∨ k ≠ at_) → paWord d.shadowBank k = paWord s.dev.shadowBank k) ∧
         d.activeBank = s.dev.activeBank ∧
         { d with
           prs := s.dev.prs
           pol := { d.pol with bankA := s.dev.pol.bankA, bankB := s.dev.pol.bankB } } = s.dev) ∧
     (∀ a v, a = s.dev.pathReg path Addr.paAddr → a.getLsbD 23 = true →
       (s.dev.activeWriteRefused (bitsOf a 0 22) (v &&& paMask (bitsOf a 0 22)) = true →
         Completes (.paDataAccess path (some v)) s fun d =>
           d.fld Base.pol F.POL_PA_STAT_CAUSE = 3 ∧ d.fld Base.pol F.POL_PA_STAT_ERR = 1 ∧
           s.dev.OnlyRegsSrcs { d with prs := s.dev.prs }
             [(Base.pol, F.POL_PA_STAT_CAUSE), (Base.pol, F.POL_PA_STAT_ERR)] [0x28]) ∧
       (s.dev.activeWriteRefused (bitsOf a 0 22) (v &&& paMask (bitsOf a 0 22)) = false →
         Completes (.paDataAccess path (some v)) s fun d =>
           paWord d.activeBank (bitsOf a 0 22) = v &&& paMask (bitsOf a 0 22) ∧
           (∀ k, k ≠ bitsOf a 0 22 → paWord d.activeBank k = paWord s.dev.activeBank k) ∧
           d.shadowBank = s.dev.shadowBank ∧ d.regs = s.dev.regs))) ∧
  (∀ s : State, s.alive →
     (bankChecks s.dev.shadowBank = true → s.dev.digestsAgree = true →
       Completes .paSwapRequest s fun d => d.fld Base.pol F.POL_PA_STAT_PENDING = 1 ∧
         s.dev.OnlyRegs d [(Base.pol, F.POL_PA_STAT_PENDING)]) ∧
     ((bankChecks s.dev.shadowBank && s.dev.digestsAgree) = false →
       Completes .paSwapRequest s fun d =>
         d.fld Base.pol F.POL_PA_STAT_CAUSE = (if bankChecks s.dev.shadowBank then 2 else 1) ∧
         d.fld Base.pol F.POL_PA_STAT_ERR = 1 ∧
         s.dev.OnlyRegsSrcs d [(Base.pol, F.POL_PA_STAT_CAUSE), (Base.pol, F.POL_PA_STAT_ERR)] [0x28]) ∧
     (s.dev.flag Base.pol F.POL_PA_STAT_PENDING = true → s.dev.lanesBusy = 0 →
       Completes .paSwapTakeEffect s fun d => d.activeBank = s.dev.shadowBank ∧
         d.shadowBank = s.dev.activeBank ∧ d.fld Base.pol F.POL_PA_STAT_PENDING = 0 ∧
         (d.src 0x29).event = true ∧
         s.dev.OnlyRegsSrcs d [(Base.pol, F.POL_PA_CTRL_ACTIVE), (Base.pol, F.POL_PA_STAT_PENDING)] [0x29]) ∧
     (s.dev.pol.testing = none →
       Completes .paTestGo s fun d => d.fld Base.pol F.POL_PA_TRES_DONE = 0 ∧
         d.pol = { s.dev.pol with
           testing := some (runSet s.dev.shadowBank (s.dev.fld Base.pol F.POL_PA_TEST_SET)
             (padTo (s.dev.fld Base.pol F.POL_PA_TEST_LEN) s.dev.pol.tkey)) } ∧
         s.dev.OnlyRegs { d with pol := s.dev.pol } [(Base.pol, F.POL_PA_TRES_DONE)]) ∧
     (∀ o, s.dev.pol.testing = some o → s.dev.lanesBusy < 16 →
       Completes .paTestDone s fun d => d.fld Base.pol F.POL_PA_TRES_DONE = 1 ∧
         d.fld Base.pol F.POL_PA_TRES_RULE = o.rule.getD 0 % 1024 ∧
         d.fld Base.pol F.POL_PA_TRES_MATCH = b2n o.rule.isSome ∧
         d.fld Base.pol F.POL_PA_TRES_MULTI = b2n o.multi ∧
         d.fld Base.pol F.POL_PA_TRES_BADSTATE = b2n o.bad ∧
         d.fld Base.pol F.POL_PA_TRES_FINAL = o.final % 2 ^ 17 ∧
         d.pol = { s.dev.pol with testing := none } ∧ { d with regs := s.dev.regs, pol := s.dev.pol } = s.dev) ∧
     (∀ w, s.dev.pol.tkeyAt < 512 →
       Completes (.paTkeyWrite w) s fun d =>
         d.pol.tkey = overlay s.dev.pol.tkey s.dev.pol.tkeyAt (be 4 w.toNat) ∧
         d.pol.tkeyAt = s.dev.pol.tkeyAt + 4 ∧
         { d with pol := { d.pol with tkey := s.dev.pol.tkey, tkeyAt := s.dev.pol.tkeyAt } } = s.dev) ∧
     (∀ len : BitVec 10, 1 ≤ len.toNat → len.toNat ≤ 512 →
       Completes (.paTestLenWrite len) s fun d => d.fld Base.pol F.POL_PA_TEST_LEN = len.toNat ∧
         d.pol = { s.dev.pol with tkeyAt := 0 } ∧
         s.dev.OnlyRegs { d with pol := s.dev.pol } [(Base.pol, F.POL_PA_TEST_LEN)]))

/-- R226, R229 to R231, R369: the longest waiting key takes the lowest free lane while no swap waits (log entry
81); a lane's result gives the key's command the winning rule's options, or its key space's, and counts; the sweep of the match entries counts
a single-bit error, and puts back from the settings an entry with a double-bit error. -/
def Obligations.KeysRunInLanesAndTheSweepRepairs : Prop :=
  ∀ s : State, s.alive →
    (∀ n l, s.dev.flag Base.pol F.POL_PA_STAT_PENDING = false → s.dev.nextLaneKey = some n →
      s.dev.freeLane = some l →
      Completes .patternLaneStart s fun d => look l d.pol.lanes = some n ∧
        (∀ j, j ≠ l → look j d.pol.lanes = look j s.dev.pol.lanes) ∧
        { d with pol := { d.pol with lanes := s.dev.pol.lanes } } = s.dev) ∧
    (∀ (l : Fin 16) n x cid q k o, look l s.dev.pol.lanes = some n → look n s.dev.pol.keys = some x →
      s.dev.disp.cmds.find? (fun e => e.2.keyNo == some n && e.2.rule.isNone) = some (cid, q) →
      s.dev.cmd cid = some q →
      s.dev.flag Base.pol F.POL_CTRL_PA_EN = true → spaceSet s.dev.activeBank x.space = some k →
      o = runSet s.dev.activeBank k x.key →
      Completes (.patternResult l) s fun d => look l d.pol.lanes = none ∧
        (o.bad = true → d.cmd cid = some { q with rule := some (s.dev.spaceDefaults x.space) } ∧
          d.fld Base.pol F.POL_PA_BADSTATE_COUNT = (s.dev.fld Base.pol F.POL_PA_BADSTATE_COUNT + 1) % 2 ^ 32) ∧
        (o.bad = false → o.rule = none →
          d.cmd cid = some { q with rule := some (s.dev.spaceDefaults x.space) } ∧
          d.fld Base.pol F.POL_PA_NOMATCH_COUNT = (s.dev.fld Base.pol F.POL_PA_NOMATCH_COUNT + 1) % 2 ^ 32) ∧
        (∀ r, o.bad = false → o.rule = some r →
          d.cmd cid = some { q with rule := some (s.dev.ruleGives s.dev.activeBank x.space r) } ∧
          d.fld Base.pol F.POL_PA_MATCH_COUNT = (s.dev.fld Base.pol F.POL_PA_MATCH_COUNT + 1) % 2 ^ 32 ∧
          d.fld Base.pol F.POL_PA_MULTI_COUNT =
            (s.dev.fld Base.pol F.POL_PA_MULTI_COUNT + b2n o.multi) % 2 ^ 32) ∧
        (∀ j, j ≠ cid → d.cmd j = s.dev.cmd j) ∧ d.sws = s.dev.sws ∧ d.ses = s.dev.ses ∧ s.dev.OnlySrcs d [0x2B]) ∧
    (∀ e : Fin 4096,
      Completes (.tcamSweep e .clean) s (fun d => d.pol = { s.dev.pol with sweep := (e + 1) % 4096 } ∧
        { d with pol := s.dev.pol } = s.dev) ∧
      Completes (.tcamSweep e .single) s (fun d =>
        d.fld Base.glb F.GLB_SRAM_CE_COUNT = (s.dev.fld Base.glb F.GLB_SRAM_CE_COUNT + 1) % 2 ^ 32 ∧
        s.dev.OnlyRegs { d with pol := s.dev.pol } [(Base.glb, F.GLB_SRAM_CE_COUNT)]) ∧
      Completes (.tcamSweep e .double) s (fun d =>
        d.fld Base.glb F.GLB_SRAM_UE_COUNT = (s.dev.fld Base.glb F.GLB_SRAM_UE_COUNT + 1) % 2 ^ 32 ∧
        d.tcEnt e = (match look e s.dev.boot.set_.tcam with
          | some ws => entryOfWords ws
          | none => { s.dev.tcEnt e with valid := false }) ∧
        (∀ j, j ≠ e.val → d.tcEnt j = s.dev.tcEnt j) ∧ (d.src 0x80).event = true ∧
        d.fld Base.glb F.GLB_SRAM_LAST_VALID = 1 ∧
        s.dev.OnlyRegsSrcs { d with pol := s.dev.pol } [(Base.glb, F.GLB_SRAM_UE_COUNT),
          (Base.glb, F.GLB_SRAM_LAST_TCAM), (Base.glb, F.GLB_SRAM_LAST_VALID)] [0x80, 0x28]))

/-! ### Index, journal and media (chapters "Placement and the swath index" and "Media management") -/

/-- R262, R264, R265, R267, R373, R548: a checkpoint pass that is due starts from the records written so far with the
segments changed since their checkpoint; asked for during another it follows that one; its end gives those
segments its RSEQ and frees the records that no segment of theirs needs, with its lines read back; a rebuild ends with its source, and
leaves the keys whose record it found; a flush empties the value cache. -/
def Obligations.CheckpointPassesFreeTheJournal : Prop :=
  ∀ (s : State) (n : Fin 16), s.alive →
    ((s.dev.sw n).pass = none → s.dev.swRuns n = true → (s.dev.sw n).ready = true → s.dev.passDue n = true →
      Completes (.ckptPassStart n) s fun d =>
        d.sw n = { s.dev.sw n with
          pass := some ((s.dev.sw n).rseq - 1, (s.dev.sw n).dirty), dirty := [], passReq := false,
          passAt := s.dev.now } ∧
        s.dev.OnlySwath d n ∧ { d with sws := s.dev.sws } = s.dev) ∧
    Completes (.ckptForce n) s (fun d =>
      d.sw n = (if (s.dev.sw n).pass.isSome then { s.dev.sw n with passReq := true }
        else { s.dev.sw n with
          pass := some ((s.dev.sw n).rseq - 1, (s.dev.sw n).dirty), dirty := [], passReq := false,
          passAt := s.dev.now }) ∧
      s.dev.OnlySwath d n ∧ { d with sws := s.dev.sws } = s.dev) ∧
    (∀ r segs, (s.dev.sw n).pass = some (r, segs) → s.dev.swRuns n = true → s.dev.NoneWaits n →
      ∀ lines, Completes (.ckptPassEnd ⟨n, lines⟩) s fun d =>
        (∀ g, lookD g 0 (d.sw n).ckpt = if g ∈ segs then r else lookD g 0 (s.dev.sw n).ckpt) ∧
        (∀ x, x ∈ (d.sw n).ring ↔ x ∈ (s.dev.sw n).ring ∧
          ¬(x.rseq ≤ r ∧ ∀ g ∈ x.segs, x.rseq ≤ lookD g 0 (d.sw n).ckpt)) ∧
        (d.sw n).pass =
          (if (s.dev.sw n).passReq then some ((s.dev.sw n).rseq - 1, (s.dev.sw n).dirty) else none) ∧
        (d.src (privSw n 11)).event = true ∧ (d.sw n).keys = (s.dev.sw n).keys ∧
        ((s.dev.sw n).passReq = false → s.dev.flag Base.glb F.GLB_START_STAT_MIGRATING = true →
          n.val ∈ d.boot.migrated) ∧
        (d.sw n).spareLines = (s.dev.sw n).spareLines - (lines.filter fun b => decide (2 < b.val)).length ∧
        s.dev.OnlySwath d n ∧
        s.dev.OnlyNoted { d with sws := s.dev.sws, boot := { d.boot with migrated := s.dev.boot.migrated } }
          (lineFlds n) [privSw n 5, privSw n 6, privSw n 11, privSw n 16]) ∧
    (s.dev.flag (Base.sw n) F.SW_IDX_REBUILD_ACTIVE = true →
      Completes (.rebuildEnd n) s fun d => d.fld (Base.sw n) F.SW_IDX_REBUILD_ACTIVE = 0 ∧
        d.fld (Base.sw n) F.SW_IDX_REBUILD_PERMILLE = 1000 ∧ (d.src (privSw n 12)).event = true ∧
        (d.sw n).rebuild = [] ∧
        (∀ k, k ∈ (d.sw n).keys ↔ k ∈ (s.dev.sw n).keys ∧ (s.dev.sw n).notFound k = false) ∧
        s.dev.OnlySwath d n ∧
        s.dev.OnlyRegsSrcs { d with sws := s.dev.sws, disp := s.dev.disp }
          [(Base.sw n, F.SW_IDX_REBUILD_ACTIVE), (Base.sw n, F.SW_IDX_REBUILD_PERMILLE)] [privSw n 12]) ∧
    Completes (.vcFlush n) s (fun d => d.sw n = { s.dev.sw n with vc := [] } ∧ s.dev.OnlySwath d n ∧
      { d with sws := s.dev.sws } = s.dev)

/-- R253, R255, R257, R329: a value of more than 64 extents, every sheaf of which opens, is joined into one,
sealed under a new value of COUNT with its record, and every other key stays; a sheaf that fails its tag stops
the join, is counted, raised and recorded. The last key of an overflow chain goes back to its group when a
candidate bucket has room, and the chain and its link go. -/
def Obligations.ValuesJoinAndBucketsRefill : Prop :=
  ∀ (s : State) (n : Fin 16), s.alive →
    (∀ space key al k, (s.dev.sw n).find space key = some k → 64 < k.extents.length →
      (s.dev.sw n).recLost k = false → (s.dev.sw n).lostSheaves k = [] → s.dev.spent n = false →
      s.dev.swRuns n = true →
      (s.dev.HasRoom n space key (some k) → k.value.length ≤ 4294967295 → (s.dev.sw n).count + 2 ≤ 2 ^ 59 →
        (∀ i < sheavesOf k.value.length, s.dev.sheafOpens k i = true) →
        Completes (.extentJoin n space key al none) s fun d =>
          (∃ k', (d.sw n).find space key = some k' ∧ k'.value = k.value ∧ k'.version = k.version ∧
            k'.loc = al.recLoc % 2 ^ 35 ∧ k'.recSeal = (s.dev.sw n).count + 1 ∧
            ∃ x, k'.extents = [x] ∧ x.loc = al.extLoc % 2 ^ 35 ∧ x.first = 0 ∧
              x.sheaves = sheavesOf k.value.length ∧ x.sealBy = n.val ∧ x.cnt = (s.dev.sw n).count ∧
              x.sealVer = k.version) ∧
          (d.sw n).count = (s.dev.sw n).count + 2 ∧
          (∀ sp ky, (sp, ky) ≠ (space, key) → (d.sw n).find sp ky = (s.dev.sw n).find sp ky) ∧
          d.fld (Base.sw n) F.SW_CIP_RESEAL_COUNT =
            (s.dev.fld (Base.sw n) F.SW_CIP_RESEAL_COUNT + sheavesOf k.value.length) % 2 ^ 32 ∧
          s.dev.OnlySwath d n ∧
          s.dev.OnlyNoted { d with sws := s.dev.sws } ([(Base.sw n, F.SW_CIP_RESEAL_COUNT),
            (Base.sw n, F.SW_CIP_SEAL_COUNT), (Base.sw n, F.SW_CIP_OPEN_COUNT)] ++ lineFlds n)
            [privSw n 5, privSw n 6, privSw n 16]) ∧
      (∀ i, Completes (.extentJoin n space key al (some i)) s fun d =>
        (d.sw n).find space key = some { k with joinBad := true, badSheaves := insertNat i k.badSheaves } ∧
        (∀ sp ky, (sp, ky) ≠ (space, key) → (d.sw n).find sp ky = (s.dev.sw n).find sp ky) ∧
        d.fld (Base.sw n) F.SW_CIP_AUTH_FAIL_COUNT =
          (s.dev.fld (Base.sw n) F.SW_CIP_AUTH_FAIL_COUNT + 1) % 2 ^ 32 ∧
        (d.src (privSw n 13)).event = true ∧ s.dev.Reported d 0x0602 (Unit.swath n) 3 1 k.hash.toNat ∧
        s.dev.OnlySwath d n ∧ s.dev.OnlySrcs d [privSw n 13, privSw n 16])) ∧
    (∀ g l k p, look g (s.dev.sw n).links = some l → l.chain ≠ [] → (s.dev.sw n).InOrder →
      (s.dev.sw n).refillFrom g = some (k, p) →
      (∀ y ∈ (s.dev.sw n).keys, (∃ b, y.ovf = some b ∧ (hashGroup y.hash = g ∨ b ∈ l.chain)) → y = k) →
      (s.dev.sw n).ring.length < ringCap →
      Completes (.overflowRefill n g) s fun d => look g (d.sw n).links = none ∧
        (d.sw n).find k.space k.key = some (k.atSpot p) ∧
        (∀ sp ky, (sp, ky) ≠ (k.space, k.key) → (d.sw n).find sp ky = (s.dev.sw n).find sp ky) ∧
        (d.sw n).ring.length = (s.dev.sw n).ring.length + 1 ∧ (d.sw n).map = (s.dev.sw n).map ∧
        s.dev.OnlySwath d n ∧ s.dev.OnlyRegsSrcs { d with sws := s.dev.sws } [] [privSw n 10])

/-- R300, R301, R302, R307, R424, Table 8-9: how a codeword read ended counts in its register; a retry of the
level WL_REFRESH names, a soft decode and a parity rebuild mark the superblock for refresh; a unit that cannot
be read is LOST, counted, raised and recorded. The die's read was in progress; a host read that finds a program
or an erase there suspends it. -/
def Obligations.CodewordReadsEscalate : Prop :=
  ∀ (s : State) (n : Fin 16) (u : Nat) (die : Fin 32) (host : Bool) (ask : List TokenAsk) (w : Word) (i : Nat),
    s.alive → s.dev.swRuns n = true → w = (s.dev.sw n).mapAt u → mapState w = 1 → bitsOf w 2 5 = die.val →
    i = ppaSb (bitsOf w 0 30) →
    (s.dev.DieBusy n die .read →
      Completes (.codewordRead n u .hard host ⟨die, ask⟩ 0) s (fun d => (d.sw n).map = (s.dev.sw n).map ∧
        (d.sw n).keys = (s.dev.sw n).keys ∧ s.dev.OnlySwath d n ∧ d.disp = s.dev.disp ∧ d.ses = s.dev.ses) ∧
      (∀ e, 1 ≤ e → e ≤ s.dev.fld (Base.sw n) F.SW_NAND_LDPC_RETRY_MAX →
        Completes (.codewordRead n u (.retry e) host ⟨die, ask⟩ 0) s fun d =>
          d.fld (Base.sw n) F.SW_MED_RETRY_COUNT = (s.dev.fld (Base.sw n) F.SW_MED_RETRY_COUNT + 1) % 2 ^ 32 ∧
          (s.dev.fld (Base.sw n) F.SW_MED_WL_REFRESH_RETRY ≤ e → ((s.dev.sw n).sb i).st ≠ .erased →
            ((s.dev.sw n).sb i).st ≠ .retired → ((d.sw n).sb i).refresh = true) ∧
          (d.sw n).map = (s.dev.sw n).map ∧ (d.sw n).keys = (s.dev.sw n).keys ∧ s.dev.OnlySwath d n) ∧
      (s.dev.flag (Base.sw n) F.SW_NAND_LDPC_SOFT_EN = true →
        Completes (.codewordRead n u .soft host ⟨die, ask⟩ 0) s fun d =>
          d.fld (Base.sw n) F.SW_MED_SOFT_COUNT = (s.dev.fld (Base.sw n) F.SW_MED_SOFT_COUNT + 1) % 2 ^ 32 ∧
          (((s.dev.sw n).sb i).st ≠ .erased → ((s.dev.sw n).sb i).st ≠ .retired →
            ((d.sw n).sb i).refresh = true) ∧
          (d.sw n).map = (s.dev.sw n).map ∧ (d.sw n).keys = (s.dev.sw n).keys ∧ s.dev.OnlySwath d n) ∧
      (s.dev.flag (Base.sw n) F.SW_NAND_LDPC_PARITY_EN = true →
        Completes (.codewordRead n u .parity host ⟨die, ask⟩ 0) s fun d =>
          d.fld (Base.sw n) F.SW_MED_PARITY_COUNT = (s.dev.fld (Base.sw n) F.SW_MED_PARITY_COUNT + 1) % 2 ^ 32 ∧
          (((s.dev.sw n).sb i).st ≠ .erased → ((s.dev.sw n).sb i).st ≠ .retired →
            ((d.sw n).sb i).refresh = true) ∧
          (d.sw n).map = (s.dev.sw n).map ∧ (d.sw n).keys = (s.dev.sw n).keys ∧ s.dev.OnlySwath d n) ∧
      ((s.dev.sw n).keysIn u = [] → Completes (.codewordRead n u .fail host ⟨die, ask⟩ 0) s fun d =>
        (d.sw n).isLost u = true ∧ (∀ v, v ≠ u → (d.sw n).mapAt v = (s.dev.sw n).mapAt v) ∧
        d.fld (Base.sw n) F.SW_MED_LOST_COUNT = (s.dev.fld (Base.sw n) F.SW_MED_LOST_COUNT + 1) % 2 ^ 32 ∧
        (d.src (privSw n 8)).event = true ∧ s.dev.Reported d 0x0502 (Unit.swath n) 3 1 i ∧
        s.dev.OnlySwath d n)) ∧
    (∀ o us, look die.val (s.dev.sw n).ops = some o → o.op ≠ .read → o.held = false →
      s.dev.flag (Base.sw n) F.SW_NAND_SUSP_EN = true → s.dev.fld (Base.sw n) F.SW_NAND_SUSP_MIN_RUN_US ≤ us →
      o.susp < s.dev.fld (Base.sw n)
        (if o.op = .erase then F.SW_NAND_SUSP_ERASE_MAX else F.SW_NAND_SUSP_PROG_MAX) →
      s.dev.pw.lowering = false →
      Completes (.codewordRead n u .hard true ⟨die, ask⟩ us) s fun d =>
        look die.val (d.sw n).ops = some { o with held := true, susp := o.susp + 1, reads := 1 } ∧
        d.fld (Base.sw n) F.SW_MED_SUSPEND_COUNT =
          (s.dev.fld (Base.sw n) F.SW_MED_SUSPEND_COUNT + 1) % 2 ^ 32 ∧
        (d.sw n).map = (s.dev.sw n).map ∧ (d.sw n).keys = (s.dev.sw n).keys ∧ s.dev.OnlySwath d n)

/-- R187, R289, R290, R302, R339: held units start to drain, with the buffer past DRAIN_START or the swath idle,
unless gleaning is in floor mode; a packing
page closes padded; the oldest full SLC superblock is tedded; a suspended operation resumes; a cipher
test leaves its result. -/
def Obligations.MediaWorkStarts : Prop :=
  ∀ (s : State) (n : Fin 16), s.alive →
    (s.dev.swRuns n = true → (s.dev.sw n).mode ≠ 3 → s.dev.drainDue n = true →
      Completes (.drainStart n) s fun d =>
        (∀ u, look u (d.sw n).units = (look u (s.dev.sw n).units).map fun x =>
          { x with st := if x.st = .held then .draining else x.st }) ∧
        d.sw n = { s.dev.sw n with units := (d.sw n).units } ∧
        s.dev.OnlySwath d n ∧ { d with sws := s.dev.sws } = s.dev) ∧
    (∀ p x, (s.dev.sw n).packOpen = some p → look p (s.dev.sw n).pack = some x →
      Completes (.packPageClose n p) s fun d =>
        look p (d.sw n).pack = some { x with used := 16384, closed := true } ∧ (d.sw n).packOpen = none ∧
        (∀ j, j ≠ p → look j (d.sw n).pack = look j (s.dev.sw n).pack) ∧
        d.sw n = { s.dev.sw n with packOpen := none, pack := (d.sw n).pack } ∧
        s.dev.OnlySwath d n ∧ { d with sws := s.dev.sws } = s.dev) ∧
    (∀ i byAge, s.dev.swRuns n = true → (s.dev.sw n).ted = none → (s.dev.sw n).oldestSlc = some i →
      (byAge = true ∨ (s.dev.sw n).fallow = true ∨ ((s.dev.sw n).drainWaits = false ∧
        s.dev.fld (Base.sw n) F.SW_MED_TED_LO ≤ (s.dev.sw n).countSb fun x => x.st == .slcFull)) →
      (s.dev.sw n).validIn i ≠ [] → sorted (s.dev.sw n).sbs = true →
      Completes (.tedTrigger n byAge) s fun d => (d.sw n).ted = some (i, byAge) ∧
        ((d.sw n).sb i).st = .tedding ∧
        (d.sw n).map = (s.dev.sw n).map ∧ (d.sw n).keys = (s.dev.sw n).keys ∧ s.dev.OnlySwath d n ∧
        d.disp = s.dev.disp ∧ d.ses = s.dev.ses) ∧
    (∀ (die : Fin 32) o, look die.val (s.dev.sw n).ops = some o →
      Completes (.opResume n die) s fun d =>
        look die.val (d.sw n).ops = some { o with held := false, reads := 0 } ∧
        d.sw n = { s.dev.sw n with ops := (d.sw n).ops } ∧ s.dev.OnlySwath d n ∧
        { d with sws := s.dev.sws } = s.dev) ∧
    (∀ pass, Completes (.katGo n pass) s fun d => d.fld (Base.sw n) F.SW_CIP_STAT_KAT_DONE = 1 ∧
      d.fld (Base.sw n) F.SW_CIP_STAT_KAT_PASS = b2n pass ∧
      s.dev.OnlyRegs d [(Base.sw n, F.SW_CIP_STAT_KAT_DONE), (Base.sw n, F.SW_CIP_STAT_KAT_PASS)])

/-- R284 to R286, R295, R303 to R306, R424: of an operation in progress on its die, in a swath no SANITIZE erases: a
program in SLC mode, or of a block's last wordline, records in the map the units whose entry still names what was
moved, and no other; another QLC program records those of the die's earlier wordlines in its superblock, and its
own units wait (log entry 38); a failed one closes its superblock and its block is listed; an erase counts
four blocks on its die, and after the last die the superblock is erased with its wear, or, with a failed
block and no spare in that plane, retired. -/
def Obligations.ProgramsAndErasesChangeTheirSuperblock : Prop :=
  ∀ (s : State) (n : Fin 16) (i : Nat) (die : Fin 32), s.alive → s.dev.swRuns n = true →
    (∀ by_ ms ask d1 t, s.dev.DieBusy n die .program → ¬(by_ = .drain ∧ (s.dev.sw n).mode = 3) →
      s.dev.streamAt n by_ die i = some (d1, t) → (s.dev.sw n).ring.length + ms.length + 1 ≤ ringCap →
      (∀ m ∈ ms, (d1.sw n).dstOk i die m.dst = true) → (ms.map (·.dst)).Nodup → (ms.map (·.unit)).Nodup →
      oneRow ((d1.sw n).sb i).slc ms = true → (by_ = .gleaning → (d1.sw n).stranded = []) →
      Completes (.programComplete n by_ i ⟨die, ask, []⟩ ms) s fun d =>
        ((∀ x ∈ (s.dev.sw n).unready, x.sb ≠ i) →
          (((d1.sw n).sb i).slc = true ∨ ∀ m ∈ ms, ppaRow false m.dst = lastRow) →
          (∀ m ∈ ms, (d.sw n).mapAt m.unit =
            if (s.dev.sw n).moveOk by_ m then nandEntry m.dst else (s.dev.sw n).mapAt m.unit) ∧
          (∀ u, (∀ m ∈ ms, m.unit ≠ u) → (d.sw n).mapAt u = (s.dev.sw n).mapAt u)) ∧
        (∀ w, (s.dev.sw n).unready = [w] → w.sb = i → w.die = die.val → ms ≠ [] →
          ((d1.sw n).sb i).slc = false → ((d1.sw n).sb i).written + ms.length < sbPages false →
          (∀ m ∈ ms, w.row < ppaRow false m.dst ∧ ppaRow false m.dst < lastRow) →
          (d.sw n).mapAt w.move.unit =
            (if (s.dev.sw n).moveOk w.by_ w.move then nandEntry w.move.dst
             else (s.dev.sw n).mapAt w.move.unit) ∧
          (∀ u, u ≠ w.move.unit → (d.sw n).mapAt u = (s.dev.sw n).mapAt u) ∧
          (d.sw n).unready.map (·.move) = ms) ∧
        d.fld (Base.sw n) F.SW_MED_PROG_COUNT = (s.dev.fld (Base.sw n) F.SW_MED_PROG_COUNT + 1) % 2 ^ 32 ∧
        s.dev.OnlySwath d n ∧ d.ses = s.dev.ses ∧ d.boot = s.dev.boot) ∧
    (∀ by_ (plane : Fin 4) dest ms d1 t, s.dev.DieBusy n die .program → s.dev.streamAt n by_ die i = some (d1, t) →
      die.val * 4 + plane.val ∉ ((s.dev.sw n).sb i).failed →
      Completes (.programFail n by_ i die plane dest ms) s fun d =>
        ((d.sw n).sb i).closed = true ∧ die.val * 4 + plane.val ∈ ((d.sw n).sb i).failed ∧
        (d.sw n).badBlks = (s.dev.sw n).badBlks ++
          [(die.val * 4 + plane.val, (s.dev.sw n).blockAt i (die.val * 4 + plane.val))] ∧
        d.fld (Base.sw n) F.SW_MED_PROG_FAIL_COUNT =
          (s.dev.fld (Base.sw n) F.SW_MED_PROG_FAIL_COUNT + 1) % 2 ^ 32 ∧
        (d.src (privSw n 7)).event = true ∧ s.dev.OnlySwath d n ∧ d.ses = s.dev.ses ∧ d.boot = s.dev.boot) ∧
    (∀ x ask, (s.dev.sw n).wipe = none → (s.dev.sw n).sb i = x → x.st = .erasing → die.val ∉ x.erasedOn → s.dev.DieBusy n die .erase →
      sorted (s.dev.sw n).sbs = true →
      Completes (.eraseComplete n i ⟨die, ask⟩) s (fun d =>
        d.fld (Base.sw n) F.SW_MED_ERASE_COUNT = (s.dev.fld (Base.sw n) F.SW_MED_ERASE_COUNT + 4) % 2 ^ 32 ∧
        (x.erasedOn.length + 1 < 32 →
          (d.sw n).sb i = { x with erasedOn := insertNat die.val x.erasedOn } ∧
          s.dev.OnlyRegsSrcs { d with sws := s.dev.sws } [(Base.sw n, F.SW_MED_ERASE_COUNT)] [privSw n 16]) ∧
        (31 ≤ x.erasedOn.length → x.failed = [] →
          ((d.sw n).sb i).st = .erased ∧ ((d.sw n).sb i).wear = x.wear + (if x.slc then 1 else 20)) ∧
        (∀ p l, 31 ≤ x.erasedOn.length → x.failed = p :: l → (s.dev.sw n).sparesIn p = [] →
          ((d.sw n).sb i).st = .retired ∧ d.fld (Base.sw n) F.SW_MED_DISSOLVED_COUNT =
            (s.dev.fld (Base.sw n) F.SW_MED_DISSOLVED_COUNT + 1) % 2 ^ 32) ∧
        s.dev.OnlySwath d n ∧ d.ses = s.dev.ses) ∧
      (∀ plane : Fin 4, die.val * 4 + plane.val ∉ x.failed → Completes (.eraseFail n i die plane) s fun d =>
        d.fld (Base.sw n) F.SW_MED_ERASE_COUNT = (s.dev.fld (Base.sw n) F.SW_MED_ERASE_COUNT + 4) % 2 ^ 32 ∧
        d.fld (Base.sw n) F.SW_MED_ERASE_FAIL_COUNT =
          (s.dev.fld (Base.sw n) F.SW_MED_ERASE_FAIL_COUNT + 1) % 2 ^ 32 ∧
        (d.sw n).badBlks = (s.dev.sw n).badBlks ++
          [(die.val * 4 + plane.val, (s.dev.sw n).blockAt i (die.val * 4 + plane.val))] ∧
        (d.src (privSw n 7)).event = true ∧ s.dev.OnlySwath d n ∧ d.ses = s.dev.ses)) ∧
    (∀ plane : Fin 4, ((s.dev.sw n).sb i).st = .erasing → die.val ∈ ((s.dev.sw n).sb i).erasedOn →
      die.val * 4 + plane.val ∉ ((s.dev.sw n).sb i).failed →
      Completes (.eraseFail n i die plane) s fun d =>
        d.fld (Base.sw n) F.SW_MED_ERASE_FAIL_COUNT =
          (s.dev.fld (Base.sw n) F.SW_MED_ERASE_FAIL_COUNT + 1) % 2 ^ 32 ∧
        (d.sw n).badBlks = (s.dev.sw n).badBlks ++
          [(die.val * 4 + plane.val, (s.dev.sw n).blockAt i (die.val * 4 + plane.val))] ∧
        die.val * 4 + plane.val ∈ ((d.sw n).sb i).failed ∧ s.dev.OnlySwath d n)

/-! ### Memory protection and repair (chapter "Memory protection") -/

/-- R347, R349, R350, R352, R353, R357, R361, R362, R364, R373, R374: the patrol reads on in address order to the granule
named, changes no data, counts a corrected beat by position and logs its granule, latches an uncorrectable one, and
shows how far it is; a mark is cleared
only while the swath owns no slot; the count-and-log table empties; halted channels run again; a page
that keeps failing is retired; a gap moves by one line, which is read back and, with more than two bits to correct, moves to a spare
line. -/
def Obligations.PatrolLogsAndRepairs : Prop :=
  ∀ (s : State) (n : Fin 16), s.alive →
    (∀ g (beat : Fin 16) at_ err passEnd e, g < 2 ^ 28 → s.dev.fld (Base.sw n) F.SW_MEM_CTRL_PATROL_H ≠ 0 →
      s.dev.swRuns n = true → (s.dev.sw n).liesAt g at_ = true →
      e = s.dev.updSw n (fun w => w.upset g beat err) →
      Completes (.patrolTick n g beat at_ err passEnd) s fun d =>
        (d.sw n).patrolAt = (if passEnd = true ∨ g = lastGranule then 0 else g + 1) ∧
        d.fld (Base.sw n) F.SW_MEM_STAT_PATROL_PCT = (d.sw n).patrolAt * 100 / 2 ^ 28 ∧
        (d.sw n).patrolNo = (s.dev.sw n).patrolNo + b2n (decide (g < (s.dev.sw n).patrolAt)) +
          b2n (passEnd || g == lastGranule) ∧
        (d.sw n).dram = (e.sw n).dram ∧
        ((e.sw n).knownGranules 0 lastGranule = [] →
          s.dev.OnlyRegs { d with sws := s.dev.sws } [(Base.sw n, F.SW_MEM_STAT_PATROL_PCT)]) ∧
        (∀ r, (s.dev.sw n).patrolAt ≤ g → passEnd = false → g ≠ lastGranule →
          (e.sw n).knownGranules (s.dev.sw n).patrolAt g = [g] → (beat.val, r) ∈ e.granuleRead n g →
          (∀ x ∈ e.granuleRead n g, x.1 ≠ beat.val → x.2 = .good) →
          (∀ j, r = .corrected j → j < 10 →
            d.fld (Base.sw n) (F.SW_MEM_DEV_COUNT.at j) =
              (s.dev.fld (Base.sw n) (F.SW_MEM_DEV_COUNT.at j) + 1) % 2 ^ 32 ∧
            ∃ l ∈ (d.sw n).log, l.2.granule = g) ∧
          (r = .bad → g ∈ (d.sw n).ueSeen ∧ d.fld (Base.sw n) F.SW_MEM_UE_INFO_VALID = 1 ∧
            (s.dev.flag (Base.sw n) F.SW_MEM_UE_INFO_VALID = false →
              d.fld (Base.sw n) F.SW_MEM_UE_ADDR_GRANULE = g ∧ d.fld (Base.sw n) F.SW_MEM_UE_ADDR_BEAT = beat ∧
              d.fld (Base.sw n) F.SW_MEM_UE_INFO_MASTER = 5))) ∧
        s.dev.OnlySwath d n ∧ (d.sw n).keys = (s.dev.sw n).keys ∧ d.disp = s.dev.disp ∧ d.ses = s.dev.ses) ∧
    (s.dev.ownsSlots n = false → Completes (.unmarkWrite n) s fun d =>
      d.marked n = none ∧ d.fld (Base.sw n) F.SW_MEM_STAT_MARK_DEV = 0 ∧
      s.dev.OnlyRegs d [(Base.sw n, F.SW_MEM_STAT_MARKED), (Base.sw n, F.SW_MEM_STAT_MARK_DEV)]) ∧
    (s.dev.ownsSlots n = true → Completes (.unmarkWrite n) s fun d => d = s.dev) ∧
    Completes (.clClear n) s (fun d => d.fld (Base.sw n) F.SW_MEM_CL_COUNT_COUNT = 0 ∧
      d.fld (Base.sw n) F.SW_MEM_CL_COUNT_OVF = 0 ∧ d.sw n = { s.dev.sw n with cl := [] } ∧
      s.dev.OnlySwath d n ∧ s.dev.OnlyRegs { d with sws := s.dev.sws }
        [(Base.sw n, F.SW_MEM_CL_COUNT_COUNT), (Base.sw n, F.SW_MEM_CL_COUNT_OVF)]) ∧
    (∀ mask : BitVec 8, Completes (.dmaRestart n mask) s fun d =>
      (∀ j, j < 8 → bit (d.fld (Base.sw n) F.SW_MEM_DMA_HALTED) j =
        (bit (s.dev.fld (Base.sw n) F.SW_MEM_DMA_HALTED) j && !mask.getLsbD j)) ∧
      s.dev.OnlyRegs d [(Base.sw n, F.SW_MEM_DMA_HALTED)]) ∧
    (∀ page, s.dev.retires n page = true → s.dev.swRuns n = true → page ∉ (s.dev.sw n).remap →
      (s.dev.sw n).remap.length < 256 →
      Completes (.pageRetire n page) s fun d =>
        (d.sw n).remap = (s.dev.sw n).remap ++ [page] ∧
        (d.sw n).ueOver = (s.dev.sw n).ueOver.filter (fun g => g / 32 != page) ∧
        (d.sw n).ueSeen = (s.dev.sw n).ueSeen ∧ (d.sw n).keys = (s.dev.sw n).keys ∧
        ((s.dev.sw n).remap.length = 255 → s.dev.Reported d 0x0702 (Unit.swath n) 2 0 0) ∧
        s.dev.OnlySwath d n ∧ d.ses = s.dev.ses ∧ d.disp = s.dev.disp ∧
        ((s.dev.sw n).knownGranules (page * 32) (page * 32 + 31) = [] →
          d.sw n = { s.dev.sw n with
            remap := (d.sw n).remap, ueOver := (d.sw n).ueOver, dram := (d.sw n).dram } ∧
          s.dev.OnlyNoted { d with sws := s.dev.sws } [] [privSw n 2])) ∧
    (∀ (region : Fin 64) (line : Fin 8), Completes (.startGapMove n ⟨region, line⟩) s fun d =>
      lookD region.val 0 (d.sw n).gaps = (lookD region.val 0 (s.dev.sw n).gaps + 1) % 2 ^ 20 ∧
      (∀ j, j ≠ region.val → lookD j 0 (d.sw n).gaps = lookD j 0 (s.dev.sw n).gaps) ∧
      (line.val ≤ 2 →
        d.sw n = { s.dev.sw n with gaps := (d.sw n).gaps, jmWear := (s.dev.sw n).jmWear + 1 }) ∧
      (2 < line.val → d.sw n = { s.dev.sw n with
          gaps := (d.sw n).gaps, jmWear := (s.dev.sw n).jmWear + 1, spareLines := (s.dev.sw n).spareLines - 1,
          fallow := (d.sw n).fallow, mode := (d.sw n).mode } ∧
        ((s.dev.sw n).spareLines ≤ 1024 → (d.sw n).fallow = true)) ∧
      (line.val = 0 → { d with sws := s.dev.sws } = s.dev) ∧
      s.dev.OnlySwath d n ∧
      s.dev.OnlyNoted { d with sws := s.dev.sws } (lineFlds n) [privSw n 5, privSw n 6, privSw n 16] ∧
      (line.val = 7 → (d.src (privSw n 5)).event = true))

/-- R355 to R357, R367, R368, R406, R580, Tables 10-1 and 10-2: a trapped or corrupted swath, session engine,
matcher, dispatcher or port is reset; the steward's own failure resets the drive; a bad cache line or
received frame is dropped; a halted channel and the first error are shown. R344, R345: with the switch of a
write, a write of part of a DRAM beat leaves the bytes merged, poisoned where the beat was uncorrectable, and
the read-modify-write is then the master shown. -/
def Obligations.UncorrectableErrorsActByPlace : Prop :=
  ∀ (s : State) (n : Fin 16) (p : PortId), s.alive →
    (¬(s.dev.underTest n = true ∧ s.dev.flag (Base.sw n) F.SW_MEM_CHK_CTRL_EN = true) →
      Completes (.coreTrap (.testLoad n)) s (fun d => d.resetting (.swath n) = true ∧
        (s.dev.resetting (.swath n) = true → d.sw n = { s.dev.sw n with trapped := true } ∧
          s.dev.OnlySwath d n ∧ { d with sws := s.dev.sws } = s.dev))) ∧
    ((s.dev.underTest n = true ∧ s.dev.flag (Base.sw n) F.SW_MEM_CHK_CTRL_EN = true) →
      Completes (.coreTrap (.testLoad n)) s fun d => d = s.dev) ∧
    (∀ c ∈ [Instr.coreTrap (.code n), .sramUe (.codeSwath n)],
      Completes c s fun d => d.resetting (.swath n) = true ∧
        (s.dev.resetting (.swath n) = true → d.sw n = { s.dev.sw n with trapped := true } ∧
          d.fld (Base.sw n) F.SW_SRAM_UE_COUNT = (s.dev.fld (Base.sw n) F.SW_SRAM_UE_COUNT + 1) % 2 ^ 32 ∧
          s.dev.OnlySwath d n ∧ d.ses = s.dev.ses ∧ d.disp = s.dev.disp)) ∧
    (∀ h : DramHit, s.dev.swRuns n = true → (s.dev.sw n).liesAt (h.granule % 2 ^ 28) h.at_ = true →
      (h.at_ = .working → Completes (.coreTrap (.fetch n h)) s fun d => d.resetting (.swath n) = true ∧
        (d.sw n).ready = false ∧ (d.sw n).haz = []) ∧
      (h.at_ ∈ [DramAt.pageMap, .indexMain, .indexOverflow, .working, .testArea] →
        Completes (.coreTrap (.load n h)) s fun d => d.resetting (.swath n) = true ∧
          (d.sw n).ready = false ∧ (d.sw n).haz = []) ∧
      (∀ loc, h.at_ = .valueCache loc → Completes (.coreTrap (.load n h)) s fun d =>
        (∀ e, e ∈ (d.sw n).vc ↔ e ∈ (s.dev.sw n).vc ∧ e.unit ≠ loc) ∧ (d.sw n).keys = (s.dev.sw n).keys ∧
        s.dev.OnlySwath d n ∧ d.ses = s.dev.ses ∧ d.disp = s.dev.disp)) ∧
    (∀ c ∈ [Instr.coreTrap .steward, .sramUe .codeSteward, .sramUe .stewardOther],
      Completes c s fun d => d.boot.running = false ∧ d.boot.cause = 2 ∧ d.ses = .reset ∧ d.disp.cmds = [] ∧
        d.disp.secret = s.dev.disp.secret ∧ d.disp.plc = s.dev.disp.plc ∧ d.disp.admNum = s.dev.disp.admNum ∧
        d.now = s.dev.now) ∧
    Completes (.sramUe (.swathMeta n)) s (fun d => d.resetting (.swath n) = true) ∧
    Completes (.sramUe .sessionOther) s (fun d => d.resetting .sessionEngine = true ∧
      (s.dev.resetting .sessionEngine = false → d.ses.ctx = [])) ∧
    Completes (.sramUe .matcherOther) s (fun d => d.resetting .policyMatcher = true ∧
      (s.dev.resetting .policyMatcher = false → d.pol.bankA = paLoad s.dev.boot.set_.pattern ∧ d.pol.lanes = [])) ∧
    Completes (.sramUe .dispatcherOther) s (fun d => d.resetting .dispatcher = true ∧
      (s.dev.resetting .dispatcher = false → d.disp.inv = 0 ∧ d.disp.invTab = [] ∧ d.disp.fills = [])) ∧
    Completes (.sramUe (.portOther p)) s (fun d => d.resetting (.port p) = true ∧
      (s.dev.resetting (.port p) = false → (d.port p).rxq = [])) ∧
    (∀ e k, (s.dev.port p).rxq[k]? = some e → Completes (.sramUe (.rxCell p k)) s fun d =>
      (d.port p).rxq = (s.dev.port p).rxq.eraseIdx k ∧ d.pool = s.dev.pool - e.cells ∧ d.pool7 = s.dev.pool7 - e.cells7 ∧
      d.fld (Base.prt p) (F.PRT_CNT_COUNT.at Cnt.noBuf) =
        (s.dev.fld (Base.prt p) (F.PRT_CNT_COUNT.at Cnt.noBuf) + 1) % 2 ^ 32 ∧
      d.fld Base.glb F.GLB_SRAM_UE_COUNT = (s.dev.fld Base.glb F.GLB_SRAM_UE_COUNT + 1) % 2 ^ 32 ∧
      (d.src 0x80).event = true ∧ d.ses = s.dev.ses ∧ d.disp = s.dev.disp ∧ d.sws = s.dev.sws) ∧
    (∀ i, Completes (.sramUe (.frontCache i)) s fun d =>
      d.disp = { s.dev.disp with fc := s.dev.disp.fc.eraseIdx i } ∧
      d.fld Base.glb F.GLB_SRAM_UE_COUNT = (s.dev.fld Base.glb F.GLB_SRAM_UE_COUNT + 1) % 2 ^ 32 ∧
      (d.src 0x80).event = true ∧
      s.dev.OnlyRegsSrcs { d with disp := s.dev.disp } [(Base.glb, F.GLB_SRAM_UE_COUNT)] [0x80]) ∧
    (∀ (ch : Fin 8) g (beat : Fin 16) loc, s.dev.swRuns n = true →
      (s.dev.sw n).liesAt (g % 2 ^ 28) (.valueCache loc) = true →
      s.dev.flag (Base.sw n) F.SW_MEM_CHK_CTRL_KILL_EN = false →
      (∀ x ∈ s.dev.granuleRead n (g % 2 ^ 28), x.1 ≠ beat.val → x.2 = .good) →
      Completes (.dmaUeHalt n ch g beat (.valueCache loc)) s fun d =>
        bit (d.fld (Base.sw n) F.SW_MEM_DMA_HALTED) ch.val = true ∧
        (∀ j, j ≠ ch.val → bit (d.fld (Base.sw n) F.SW_MEM_DMA_HALTED) j =
          bit (s.dev.fld (Base.sw n) F.SW_MEM_DMA_HALTED) j) ∧
        (∀ e, e ∈ (d.sw n).vc ↔ e ∈ (s.dev.sw n).vc ∧ e.unit ≠ loc) ∧
        d.fld (Base.sw n) F.SW_MEM_UE_INFO_VALID = 1 ∧
        (s.dev.flag (Base.sw n) F.SW_MEM_UE_INFO_VALID = false →
          d.fld (Base.sw n) F.SW_MEM_UE_ADDR_GRANULE = g % 2 ^ 28 ∧
          d.fld (Base.sw n) F.SW_MEM_UE_ADDR_BEAT = beat ∧ d.fld (Base.sw n) F.SW_MEM_UE_INFO_MASTER = 2) ∧
        s.dev.OnlySwath d n ∧ d.ses = s.dev.ses ∧ d.disp = s.dev.disp) ∧
    (∀ (ch : Fin 8) g (beat : Fin 16) at_, s.dev.swRuns n = true →
      (s.dev.sw n).liesAt (g % 2 ^ 28) at_ = true →
      at_ ∈ [DramAt.pageMap, .indexMain, .indexOverflow, .working, .testArea] →
      Completes (.dmaUeHalt n ch g beat at_) s fun d => d.resetting (.swath n) = true ∧
        (d.sw n).ready = false ∧ (d.sw n).haz = []) ∧
    (∀ cid al (w : BeatWrite) e l loc, exec (.writeComplete n cid al none) s = .next { s with dev := e } →
      (e.sw n).rseq ≠ (s.dev.sw n).rseq → e.swRuns n = true → w.at_ = .valueCache loc →
      (e.sw n).liesAt (w.granule % 2 ^ 28) w.at_ = true → w.new.length < 8 →
      l = e.channelRead n
        (((e.sw n).upset (w.granule % 2 ^ 28) w.beat.val w.err).beatAt (w.granule % 2 ^ 28) w.beat.val) →
      Completes (.writeComplete n cid al (some w)) s fun d =>
        look (beatNo ((e.sw n).servedBy (w.granule % 2 ^ 28)) w.beat.val) (d.sw n).dram =
          some ((if decodeBeat (e.marked n) l = .bad then poisonBeat else beatOf)
            ((overlay (beatData (e.marked n) l) w.first.val w.new).take 8)) ∧
        (decodeBeat (e.marked n) l = .bad → d.fld (Base.sw n) F.SW_MEM_UE_INFO_VALID = 1 ∧
          (e.flag (Base.sw n) F.SW_MEM_UE_INFO_VALID = false →
            d.fld (Base.sw n) F.SW_MEM_UE_INFO_MASTER = 7)) ∧
        (d.sw n).keys = (e.sw n).keys ∧ d.ses = e.ses ∧ d.disp = e.disp)

/-! ### Moving slots (chapter "Placement and the swath index") -/

/-- R271 to R273, R587: the copy pass of the slot in motion ends with its entry in CUTOVER; the cutover
gives the slot to its new swath, with SLOT_IN and SLOT_OUT in the journals, and nothing of it stays at
a source that is not its partner; the job ends when no slot is left, or with NO_SPACE when no swath can
take the next. -/
def Obligations.SlotsMoveByCopyAndCutover : Prop :=
  ∀ (s : State) (n m src : Fin 16) (act k : Nat), s.alive →
    (s.dev.moving = some (n, act, k, src, m) → s.dev.online src = true → s.dev.online m = true →
      (((s.dev.slot k).st = 1 ∨ (s.dev.slot k).st = 5) → (∃ e, s.dev.syncSlot src m k (s.dev.slot k).pairedOnly [] = some e) →
        ((s.dev.slot k).moved.length < 65536 ∨ s.dev.adm.copies = 2) →
        Completes .slotCopyPass s fun d =>
          d.slot k = { s.dev.slot k with st := 2, copied := true, moved := [] } ∧
          d.adm = { s.dev.adm with copies := s.dev.adm.copies + 1 } ∧ d.ses = s.dev.ses ∧ d.boot = s.dev.boot) ∧
      (∀ al e, (s.dev.slot k).st = 2 → s.dev.slotBusy k src = false →
        s.dev.syncSlot src m k (s.dev.slot k).pairedOnly al = some e →
        (e.sw src).ring.length + ((e.movedKeys src k (s.dev.slot k).pairedOnly).flatMap KeyEnt.units).length + 2 ≤ ringCap →
        (e.sw m).ring.length + 2 ≤ ringCap →
        Completes (.slotCutover al) s fun d => (d.slot k).owner = m ∧
          (∃ r ∈ (d.sw m).ring, r.type = 5 ∧ r.space = k) ∧
          (src ≠ (s.dev.slot k).partner → (∃ r ∈ (d.sw src).ring, r.type = 6 ∧ r.space = k) ∧
            d.movedKeys src k (s.dev.slot k).pairedOnly = []) ∧
          d.adm.moved = s.dev.adm.moved + 1 ∧ (src ≠ m → d.fld (Base.sw m) F.SW_MEM_CHK_CTRL_KILL_EN = 0) ∧
          d.ses = s.dev.ses ∧ d.boot = s.dev.boot)) ∧
    (∀ j, s.dev.evacJob = some (n, j) → s.dev.job 3 n.val = some j → s.dev.adm.slot = none →
      (s.dev.nextSlot n j.act = none → Completes .evacuationEnd s fun d =>
        d.job 3 n.val = some { j with st := 2, result := St.ok, permille := 1000 } ∧
        d.fld Base.dsp F.DSP_EVQ_STAT_ACTIVE = 0 ∧ (d.src 0x31).event = true ∧ (d.src 0xB5).event = true ∧
        s.dev.OnlyNoted { d with adm := s.dev.adm } [(Base.dsp, F.DSP_EVQ_STAT_ACTIVE)] [0x31, 0xB5]) ∧
      (∀ t, j.act = 1 → s.dev.nextSlot n 1 = some t →
        s.dev.fosterFor n t j.arg = none →
        Completes .evacuationEnd s fun d =>
          d.job 3 n.val = some { j with st := 3, result := St.noSpace } ∧
          d.fld Base.dsp F.DSP_EVQ_STAT_ACTIVE = 0 ∧ (d.src 0x31).event = true ∧ (d.src 0xB5).event = true ∧
          s.dev.OnlyNoted { d with adm := s.dev.adm } [(Base.dsp, F.DSP_EVQ_STAT_ACTIVE)] [0x31, 0xB5]))

/-! ### Interrupts, notification, freezing and resets (chapter "Interrupts, notification and isolation") -/

/-- R391, R395, R400: an event of a listed source sets its event bit; an edge of a source of kind C that
is not sampled sets its latch; one that comes in SERVICE counts. Private sources belong to their target.
R393, R394, R396, R398, R401: a claim takes the best deliverable source into SERVICE and shows it; one
claim too many in a millisecond masks the source instead; completion takes it out of SERVICE and sets its
latch when assertions were counted; any other write of a done register counts as stray. The software
registers set and clear the event bits of target 17's private sources. -/
def Obligations.SourcesAreAssertedClaimedAndDone : Prop :=
  (∀ (s : State) (t : Fin 18) (k : Nat), s.alive →
     (k < 0x100 → sharedListed k = true → ((srcFn k).map s.dev.resetting).getD false = false →
       Completes (.irqSourceAssert t k) s fun d =>
         d.src k = (if kindC k then { countAssert (s.dev.src k) with latch := !s.dev.signal k }
           else { countAssert (s.dev.src k) with event := true, latch := false }) ∧
         s.dev.OnlyRegsSrcs d [] [k]) ∧
     (0x100 ≤ k → k < 0x140 → t.val < 17 →
       (1 ≤ t.val → s.dev.resetting (.swath (finSw (t.val - 1))) = false) →
       Completes (.irqSourceAssert t k) s fun d =>
         d.src (priv t (k - 0x100)) =
           (if 1 ≤ t.val ∧ kindCPriv (k - 0x100) then
             { countAssert (s.dev.src (priv t (k - 0x100))) with latch := !s.dev.signal (priv t (k - 0x100)) }
           else { countAssert (s.dev.src (priv t (k - 0x100))) with event := true, latch := false }) ∧
         s.dev.OnlyRegsSrcs d [] [priv t (k - 0x100)])) ∧
  (∀ (s : State) (t : Fin 18), s.alive →
     (∀ k, s.dev.targetRuns t = true → t.val ≠ 17 → s.dev.bestSource t = some k →
       (s.dev.overStorm k = false → Completes (.irqClaim t .own false) s fun d =>
         d.src k = { s.dev.src k with
           service := true, by_ := t, latch := false, events := 0
           claims := (s.dev.src k).claims + 1 } ∧
         lookD t.val 0 d.irq.claimRead = s.dev.claimWord k ∧
         s.dev.OnlyRegsSrcs { d with irq := { d.irq with claimRead := s.dev.irq.claimRead } } [] [k]) ∧
       (s.dev.overStorm k = true → Completes (.irqClaim t .own false) s fun d =>
         d.src k = { s.dev.src k with storm := true } ∧ (d.src 0x8B).event = true ∧
         lookD t.val 0 d.irq.claimRead = 0 ∧
         d.fld Base.irq F.IRQ_STORM_COUNT_COUNT = (s.dev.fld Base.irq F.IRQ_STORM_COUNT_COUNT + 1) % 2 ^ 32 ∧
         s.dev.Reported d 0x0803 Unit.steward 2 (srcId k) 0 ∧
         s.dev.OnlyNoted { d with irq := { d.irq with claimRead := s.dev.irq.claimRead } }
           [(Base.irq, F.IRQ_STORM_COUNT_COUNT)] [k, 0x8B])) ∧
     (s.dev.targetRuns t = true → t.val ≠ 17 → s.dev.bestSource t = none →
       Completes (.irqClaim t .own false) s fun d => lookD t.val 0 d.irq.claimRead = 0 ∧
         { d with irq := { d.irq with claimRead := s.dev.irq.claimRead } } = s.dev) ∧
     Completes (.irqClaim t .other false) s (fun d =>
       lookD t.val 0 d.irq.claimRead = ((s.dev.bestSource t).map s.dev.claimWord).getD 0 ∧
       { d with irq := { d.irq with claimRead := s.dev.irq.claimRead } } = s.dev) ∧
     (∀ id : BitVec 10, s.dev.inService t id.toNat = true →
       Completes (.irqDone t id .own) s fun d =>
         d.src (srcOfId t id.toNat) = { s.dev.src (srcOfId t id.toNat) with
           service := false, by_ := 0
           latch := ((s.dev.src (srcOfId t id.toNat)).latch || (s.dev.src (srcOfId t id.toNat)).events != 0) &&
             !s.dev.signal (srcOfId t id.toNat) } ∧
         d.irq.out = (if t.val = 17 then s.dev.irq.out.filter fun o => o.src != id.toNat else s.dev.irq.out) ∧
         s.dev.OnlyRegsSrcs { d with irq := { d.irq with out := s.dev.irq.out } } [] [srcOfId t id.toNat]) ∧
     (∀ (id : BitVec 10) m, (m = .other ∨ s.dev.inService t id.toNat = false) →
       Completes (.irqDone t id m) s fun d =>
         d.fld Base.irq F.IRQ_DONE_STRAY_COUNT = (s.dev.fld Base.irq F.IRQ_DONE_STRAY_COUNT + 1) % 2 ^ 32 ∧
         s.dev.OnlyRegs d [(Base.irq, F.IRQ_DONE_STRAY_COUNT)]) ∧
     (∀ (k : Fin 2) (mask : Word),
       Completes (.ntfSwSet k mask) s (fun d =>
         (∀ j, j < 32 → mask.getLsbD j = true → (d.src (priv 17 (32 * k + j))).event = true) ∧
         s.dev.OnlyRegsSrcs d [] (swSources k mask)) ∧
       Completes (.ntfSwClr k mask) s (fun d =>
         (∀ j, j < 32 → mask.getLsbD j = true → d.src (priv 17 (32 * k + j)) =
           { s.dev.src (priv 17 (32 * k + j)) with event := false }) ∧
         s.dev.OnlyRegsSrcs d [] (swSources k mask))))

/-- R51, R173, R402, R404, R405: the notification engine claims the best source of target 17 and sends its
NOTIFY in class 7, which then awaits completion; NOTIFY_DONE completes a source in SERVICE there, and is MALFORMED
for another; a timeout completes it and counts. -/
def Obligations.NotificationsGoOutAndEnd : Prop :=
  ∀ s : State, s.alive →
    (∀ sid c k, s.dev.flag Base.irq F.IRQ_NTF_CTRL_EN = true → s.dev.targetRuns 17 = true →
      s.dev.irq.out.length < s.dev.fld Base.irq F.IRQ_NTF_CTRL_MAX_OUT → s.dev.ntfSession = some sid →
      s.dev.ctx sid = some c → s.dev.bestSource 17 = some k → s.dev.overStorm k = false →
      Completes .notifyClaim s fun d =>
        d.irq.out = s.dev.irq.out ++ [⟨srcId k, sid⟩] ∧ (d.src k).service = true ∧ (d.src k).by_ = 17 ∧
        (∃ c' fs, d.ctx sid = some c' ∧ c'.out = c.out ++ fs ∧ fs ≠ [] ∧
          (∀ f ∈ fs, f.op = Op.notify ∧ f.cid = none ∧ f.seq = c.txNext ∧ f.via.cls = 7) ∧
          (fs.map (·.payload)).flatten = be 2 (srcId k) ++ be 1 17 ++ be 1 (s.dev.srcPrio k) ++
            be 1 (s.dev.src k).events ++ zeros 3 ++ be 8 s.dev.stamp) ∧
        d.fld Base.irq F.IRQ_NTF_SENT_COUNT = (s.dev.fld Base.irq F.IRQ_NTF_SENT_COUNT + 1) % 2 ^ 32 ∧
        s.dev.OnlyFlds d [(Base.irq, F.IRQ_NTF_SENT_COUNT)] ∧ s.dev.OnlySrcs d [k] ∧ s.dev.OnlyCtx d sid) ∧
    (∀ cid q c, s.dev.Asks cid Op.notifyDone q c →
      (s.dev.inService 17 (fieldBe q.payload 0 2) = true → Completes (.notifyDone cid) s fun d =>
        s.dev.Answered d cid St.ok [] ∧ (d.src (srcOfId 17 (fieldBe q.payload 0 2))).service = false ∧
        d.irq.out = (s.dev.irq.out.filter fun o => o.src != fieldBe q.payload 0 2) ∧
        s.dev.OnlySrcs d [srcOfId 17 (fieldBe q.payload 0 2)] ∧ s.dev.OnlyAnswer { d with irq := s.dev.irq } q.sid) ∧
      (s.dev.inService 17 (fieldBe q.payload 0 2) = false → Completes (.notifyDone cid) s fun d =>
        s.dev.Answered d cid St.malformed [] ∧ s.dev.OnlyAnswer d q.sid)) ∧
    (∀ k, s.dev.targetRuns 17 = true → (∃ o ∈ s.dev.irq.out, o.src = k) → Completes (.notifyTimeout k) s fun d =>
      (d.src (srcOfId 17 k)).service = false ∧ (∀ o, o ∈ d.irq.out ↔ o ∈ s.dev.irq.out ∧ o.src ≠ k) ∧
      d.fld Base.irq F.IRQ_NTF_TIMEOUT_COUNT = (s.dev.fld Base.irq F.IRQ_NTF_TIMEOUT_COUNT + 1) % 2 ^ 32 ∧
      s.dev.OnlyRegsSrcs { d with irq := { d.irq with out := s.dev.irq.out } }
        [(Base.irq, F.IRQ_NTF_TIMEOUT_COUNT)] [srcOfId 17 k])

/-- R380 to R382, R385, R589: an access outside its windows freezes the master's function and is latched
and recorded, does nothing more to a function already frozen, is only recorded for one under reset, and
resets the drive when the master is the steward's; after AUTO_S seconds the frozen function is reset; a
core that does not answer is reset. -/
def Obligations.ViolationsFreezeAndResetFunctions : Prop :=
  ∀ s : State, s.alive →
    (∀ (m : Fin 148) (a : BitVec 40) (right : Fin 3) (pc : BitVec 32),
      (masterFn m = none → Completes (.windowViolation m a right pc) s fun d =>
        d.boot.running = false ∧ d.boot.cause = 2 ∧ d.ses = .reset ∧ d.now = s.dev.now) ∧
      (∀ f, masterFn m = some f →
        (s.dev.resetting f = true → Completes (.windowViolation m a right pc) s fun d =>
          s.dev.Reported d 0x0802 (fnUnit f) 2 m a.toNat ∧ s.dev.OnlyNoted d [] []) ∧
        (s.dev.resetting f = false → s.dev.fnFrozen f = true →
          Completes (.windowViolation m a right pc) s fun d => d = s.dev) ∧
        (s.dev.resetting f = false → s.dev.fnFrozen f = false →
          Completes (.windowViolation m a right pc) s fun d => d.fnFrozen f = true ∧
            s.dev.Reported d 0x0801 (fnUnit f) 3 m a.toNat ∧ d.fld Base.glb F.GLB_FRZ_INFO_VALID = 1 ∧
            (s.dev.flag Base.glb F.GLB_FRZ_INFO_VALID = false →
              d.fld Base.glb F.GLB_FRZ_INFO_MASTER = m ∧ d.fld Base.glb F.GLB_FRZ_INFO_RIGHT = right ∧
              d.fld Base.glb F.GLB_FRZ_ADDR_LO_ADDR = a.toNat % 2 ^ 32 ∧
              d.fld Base.glb F.GLB_FRZ_ADDR_HI_ADDR = a.toNat / 2 ^ 32) ∧
            s.dev.OnlyNoted d [(Base.glb, F.GLB_FRZ_INFO_MASTER), (Base.glb, F.GLB_FRZ_INFO_RIGHT),
              (Base.glb, F.GLB_FRZ_INFO_VALID), (Base.glb, F.GLB_FRZ_ADDR_LO_ADDR),
              (Base.glb, F.GLB_FRZ_ADDR_HI_ADDR), (Base.glb, F.GLB_FRZ_PC_PC),
              (Base.glb, F.GLB_FRZ_STAT_SWATHS), (Base.glb, F.GLB_FRZ_STAT_NOTIFICATION),
              (Base.glb, F.GLB_FRZ_STAT_EVENT_RECORDER)] (0x89 :: (List.range 16).map (0x50 + ·))))) ∧
    (∀ f, s.dev.fnFrozen f = true → s.dev.resetting f = false →
      s.dev.fld Base.glb F.GLB_FRZ_CTRL_AUTO_S ≠ 0 →
      Completes (.freezeAutoReset f) s fun d => d.resetting f = true ∧ d.fnFrozen f = false) ∧
    (∀ n : Fin 16, s.dev.swFrozen n = false → (s.dev.sw n).failed = false → (s.dev.sw n).leftOff = false →
      Completes (.mailboxTimeout n) s fun d => d.resetting (.swath n) = true)

/-- R168, R406, R407, R589: FUNCTION_RESET of a function off its own path begins the reset and is answered
when it ends; on its own path it is answered first, and the reset begins when the answer has left; BUSY while the function is under reset, MALFORMED for
no function's name. The end of a reset clears ACTIVE, records its length, answers the asker, and brings
a swath back unless it has failed, waits for power or for the hold-up bank (R435), or was reset too often. -/
def Obligations.FunctionResetsBeginAndEnd : Prop :=
  ∀ s : State, s.alive →
    (∀ cid q c, s.dev.Asks cid Op.functionReset q c →
      (fnOfName (slice q.payload 0 16) = none → Completes (.functionReset cid) s fun d =>
        s.dev.Answered d cid St.malformed [] ∧ s.dev.OnlyAnswer d q.sid) ∧
      (∀ f, fnOfName (slice q.payload 0 16) = some f →
        (s.dev.resetting f = true → Completes (.functionReset cid) s fun d =>
          s.dev.Answered d cid St.busy [] ∧ s.dev.OnlyAnswer d q.sid) ∧
        (s.dev.resetting f = false → ownPath c.port f = false →
          Completes (.functionReset cid) s fun d => d.resetting f = true ∧
            look (fnNo f) d.irq.asker = some cid) ∧
        (s.dev.resetting f = false → ownPath c.port f = true →
          Completes (.functionReset cid) s fun d => s.dev.Answered d cid St.ok (zeros 8) ∧
            (f, cid) ∈ d.irq.due ∧ s.dev.OnlyAnswer { d with irq := s.dev.irq } q.sid))) ∧
    (∀ f cid p left, s.dev.irq.due = [(f, cid)] → s.dev.cmd cid = none →
      (s.dev.resetting f = false → f ≠ .drive →
        Completes (.frameTransmit p left) s fun d => d.resetting f = true ∧ d.irq.due = []) ∧
      (f = .drive → Completes (.frameTransmit p left) s fun d => d.boot.running = false ∧ d.boot.cause = 2)) ∧
    (∀ f us lost k, fnBit f = some k → s.dev.resetting f = true →
      Completes (.functionResetComplete f us lost) s fun d => d.resetting f = false ∧
        (∃ i, look k d.irq.rst = some i ∧ i.us = us % 2 ^ 32) ∧ look k d.irq.asker = none ∧
        (∀ cid q c, (∀ n, f ≠ .swath n) → look k s.dev.irq.asker = some cid → s.dev.cmd cid = some q →
          s.dev.ctx q.sid = some c → s.dev.Answered d cid St.ok (be 4 us ++ zeros 4)) ∧
        (∀ n, f = .swath n → (d.src (0x70 + n.val)).event = true ∧
          (((look n.val s.dev.irq.steps).getD []).length < 3 → s.dev.pw.waiting = false →
            (s.dev.sw n).failed = false → (s.dev.sw n).leftOff = false → s.dev.bankOk = true →
            (d.sw n).ready = true) ∧
          (3 ≤ ((look n.val s.dev.irq.steps).getD []).length → (d.sw n).leftOff = true ∧
            ∃ v, s.dev.Reported d 0x0C02 (Unit.swath n) 3
              ((look n.val s.dev.irq.steps).getD []).length v)))

/-! ### Power (chapter "Power") -/

/-- R205, R433, R439 to R442, R451, R486: with the bank charged, a failing supply, and a sensor at its critical level,
raise power-fail with its cause, counted and noted; the calendar is
saved and every swath not under reset flushes its units and its counter; an overvoltage of the input that
feeds the drive is one. Before the bank is charged a failing supply is only shown. When the flush ends the drive is down; its sessions and commands are gone, and
what its swaths flushed, their maps and their journals stay, and the calendar goes on from what was saved. -/
def Obligations.PowerFailFlushesAndEnds : Prop :=
  ∀ s : State,
    (∀ c (cause : Fin 5), s.alive →
      ((∃ k : Fin 4, c = .powerFail (.supply k) ∧ cause.val = k.val ∧ s.dev.pfPossible k.val = true ∧
          s.dev.pw.charged = true) ∨
        (∃ k v, c = .powerFail (.hot k v) ∧ cause.val = 4 ∧ criticalOf k.val * 10 ≤ v) ∨
        c = .v12Overvoltage ∧ cause.val = 3 ∧ s.dev.envelope = 1 ∧ s.dev.pw.charged = true) →
      Completes c s fun d =>
        d.pw = { s.dev.pw with
          pfActive := true, pfCause := cause, pfPend := true, temp := d.pw.temp, tempMax := d.pw.tempMax
          stopped := s.dev.pw.stopped || decide (cause.val = 4) } ∧
        d.fld Base.pwr F.PWR_PF_COUNT = min 65535 (s.dev.fld Base.pwr F.PWR_PF_COUNT + 1) ∧
        d.fld Base.pwr F.PWR_PF_CAUSE = cause ∧ (d.src 0x90).event = true ∧ s.dev.OnlySrcs d [0x90] ∧
        d.cal = { s.dev.cal with
          saved := s.dev.cal.tick, savedU := s.dev.cal.uncertUs, savedTrust := s.dev.trust } ∧
        (∀ n, s.dev.resetting (.swath n) = false → (s.dev.sw n).ready = true →
          (d.sw n).hiMark = some (s.dev.sw n).count ∧ (d.sw n).flushed = (s.dev.sw n).units.map (·.1)) ∧
        (∀ n, d.sw n = { s.dev.sw n with hiMark := (d.sw n).hiMark, flushed := (d.sw n).flushed }) ∧
        d.ses = s.dev.ses ∧ d.disp = s.dev.disp ∧ d.boot = s.dev.boot) ∧
    (s.alive → (s.dev.envelope ≠ 1 ∨ s.dev.pw.charged = false) → Completes .v12Overvoltage s fun d =>
      d.fld Base.pwr F.PWR_STAT_V12_OK = 0 ∧ s.dev.OnlyRegs d [(Base.pwr, F.PWR_STAT_V12_OK)]) ∧
    (∀ k : Fin 4, s.alive → s.dev.pw.charged = false → Completes (.powerFail (.supply k)) s fun d =>
      s.dev.OnlyRegs d [(Base.pwr, F.PWR_STAT_V12_OK), (Base.pwr, F.PWR_STAT_PD_OK)]) ∧
    (∀ us, s.dev.pw.pfActive = true → Completes (.flushComplete us) s fun d =>
      d.boot.running = false ∧ d.boot.cause = (if s.dev.pw.pfCause = 4 then 4 else 1) ∧ d.alive = false ∧
      d.ses = .reset ∧ d.disp.cmds = [] ∧ d.disp.secret = s.dev.disp.secret ∧ d.disp.plc = s.dev.disp.plc ∧
      d.disp.admNum = s.dev.disp.admNum ∧ d.pw.pfActive = false ∧
      (∀ n, (d.sw n).units = (s.dev.sw n).units ∧ (d.sw n).map = (s.dev.sw n).map ∧
        (d.sw n).hiMark = (s.dev.sw n).hiMark ∧ (d.sw n).ring = (s.dev.sw n).ring ∧
        (d.sw n).count = (s.dev.sw n).count ∧ (d.sw n).ready = false ∧ (d.sw n).ops = [] ∧ (d.sw n).waits = []) ∧
      d.cal.saved = s.dev.cal.saved ∧ d.pw.stopped = s.dev.pw.stopped)

/-- R412 to R415, R418 to R420, R422, R423: in Heath an allocation becomes the budget and the pool at once. Where it
lowers them, the operations in progress run under the old pool and the echo waits until none of them is left; where
it does not, the swaths grant what the greater pool allows. Below 47 W the drive waits for power; LLDP carries the request and the
allocation echoed; power on V12_IN moves the drive to Meadow. -/
def Obligations.BudgetsFollowTheirSource : Prop :=
  ∀ (s : State) (mw b : Nat), s.alive → mw < 2 ^ 17 →
    (s.dev.envelope ≠ 2 → Completes (.lldpAllocation mw) s fun d =>
      d.fld Base.pwr F.PWR_ALLOC_MW = mw ∧ d.fld Base.pwr F.PWR_STAT_LLDP = 1 ∧
      d.pw = { s.dev.pw with lldpTalk := true, allocMw := mw } ∧
      s.dev.OnlyRegs { d with pw := s.dev.pw } [(Base.pwr, F.PWR_ALLOC_MW), (Base.pwr, F.PWR_STAT_LLDP)]) ∧
    (s.dev.envelope = 2 → b = heathBudget (s.dev.fld Base.pwr F.PWR_STAT_CLASS) (some mw) →
      Completes (.lldpAllocation mw) s fun d =>
        d.budget = b ∧ d.pw.pool = s.dev.poolFor b ∧ d.fld Base.pwr F.PWR_ALLOC_MW = mw ∧
        d.pw.waiting = decide (b < 47000) ∧
        (b < 47000 → d.pw.lowering = decide (b < s.dev.budget ∨ s.dev.pw.waiting = false) ∧
          (s.dev.pw.waiting = true → s.dev.budget ≤ b → d.pw.allocMw = mw) ∧ (s.dev.pw.waiting = false →
          d.fld Base.glb F.GLB_START_STAT_READY = 0 ∧
          ∀ n, (s.dev.sw n).ready = true → s.dev.resetting (.swath n) = false → (d.sw n).ready = false)) ∧
        (47000 ≤ b → d.pw.lowering = decide (b < s.dev.budget) ∧
          (s.dev.budget ≤ b → d.pw.allocMw = mw) ∧ (b < s.dev.budget → d.pw.allocMw = s.dev.pw.allocMw)) ∧
        (47000 ≤ b → s.dev.pw.waiting = false → s.dev.OnlySrcs d [0x92] ∧
          (s.dev.budget ≤ b → s.dev.OnlyGrants d) ∧
          (b < s.dev.budget → (∀ n, (s.dev.sw n).waits = []) → d.sws = s.dev.sws.map Swath.oldOps) ∧
          { d with
            regs := s.dev.regs, irq := { d.irq with src := s.dev.irq.src }, pw := s.dev.pw
            sws := s.dev.sws } = s.dev)) ∧
    (s.dev.pw.lowering = true → (∀ n, ∀ e ∈ (s.dev.sw n).ops, e.2.old = false) → Completes .lldpEcho s fun d =>
      d.pw = { s.dev.pw with lowering := false, allocMw := s.dev.fld Base.pwr F.PWR_ALLOC_MW } ∧
      (∃ e, (d.port .c).txq = (s.dev.port .c).txq ++ [e] ∧
        e.item = .lldp (s.dev.fld Base.pwr F.PWR_LLDP_REQ_MW) (s.dev.fld Base.pwr F.PWR_ALLOC_MW)) ∧
      s.dev.OnlyPort d .c ∧ ({ d with pw := s.dev.pw }).withPorts s.dev = s.dev) ∧
    ((∃ n, ∃ e ∈ (s.dev.sw n).ops, e.2.old = true) → exec .lldpEcho s = .next s) ∧
    (s.dev.flag (Base.prt .c) F.PRT_STATUS_LINK = true → Completes .lldpSendTimer s fun d =>
      (∃ e, (d.port .c).txq = (s.dev.port .c).txq ++ [e] ∧
        e.item = .lldp (s.dev.fld Base.pwr F.PWR_LLDP_REQ_MW) s.dev.pw.allocMw) ∧
      s.dev.OnlyPort d .c ∧ d.withPorts s.dev = s.dev) ∧
    (s.dev.envelope = 2 → s.dev.flag Base.pwr F.PWR_CTRL_LIVE_EN = true →
      Completes .liveMoveMeadow s fun d => d.envelope = 1 ∧ d.fld Base.pwr F.PWR_STAT_V12_OK = 1 ∧
        d.budget = 85000 ∧ (d.src 0x91).event = true ∧ d.pw.waiting = false) ∧
    (s.dev.envelope = 2 → s.dev.flag Base.pwr F.PWR_CTRL_LIVE_EN = false →
      Completes .liveMoveMeadow s fun d => d.fld Base.pwr F.PWR_STAT_V12_OK = 1 ∧
        s.dev.OnlyRegs d [(Base.pwr, F.PWR_STAT_V12_OK)])

/-- R426, R427, R431 to R433, Table 12-3: the power loop raises its level by 1 while the draw exceeds the
budget and lowers it after 100 comparisons 2 W below; a sensor at its limit raises the thermal level by 2,
as each second there does, and ten cool seconds lower it by 1; one at its critical level raises power-fail; the effective pool follows the greater
level, and the swaths grant what it allows.
R18, R428, R429, R432: an island that droops runs at half clock and counts its trips; it has its full clock back when
it recovers, unless the controller junction is at its limit, which halves every swath island's clock until it is
below, and a droop still open then halves it on.
R428, R435, R437, R438: the millisecond's trips raise one source; the bank charges, and each
test sets the units and the health it supports, with source and record when the health changes; HELD
units beyond N drain (log entry 78). -/
def Obligations.LevelsDroopsAndTheBankAct : Prop :=
  (∀ s : State, s.alive →
     (∀ mw ok, s.dev.flag Base.pwr F.PWR_TOK_CTRL_LOOP_EN = true →
       ok = (if mw + 2000 < s.dev.budget then s.dev.pw.okTicks + 1 else 0) →
       Completes (.powerLoopTick mw) s fun d =>
         d.fld Base.pwr F.PWR_DRAW_MW = min mw 131071 ∧
         d.pw.levelP = (if s.dev.budget < mw then min 12 (s.dev.pw.levelP + 1)
           else if 100 ≤ ok then s.dev.pw.levelP - 1 else s.dev.pw.levelP) ∧
         d.pw.okTicks = (if 100 ≤ ok then 0 else ok) ∧
         d.pw.effective = s.dev.pw.pool * (16 - max d.pw.levelP s.dev.pw.levelT) / 16 ∧
         d.pw = { s.dev.pw with
           levelP := d.pw.levelP, okTicks := d.pw.okTicks, effective := d.pw.effective } ∧
         (s.dev.level = 0 → 0 < d.level → (d.src 0x96).event = true) ∧
         s.dev.OnlyGrants d ∧
         s.dev.OnlyRegsSrcs { d with pw := s.dev.pw, sws := s.dev.sws } [(Base.pwr, F.PWR_DRAW_MW),
           (Base.pwr, F.PWR_TOK_STAT_POOL), (Base.pwr, F.PWR_TOK_STAT_EFFECTIVE), (Base.pwr, F.PWR_TOK_STAT_LEVEL),
           (Base.pwr, F.PWR_TOK_STAT_BY_POWER), (Base.pwr, F.PWR_TOK_STAT_BY_THERM)] [0x96]) ∧
     (∀ (k : Fin 50) v, (s.dev.limitOf k - 10) * 10 ≤ v → k.val ∉ s.dev.pw.warned →
       (s.dev.setTemp k.val v).tooHot = false →
       Completes (.thermalWarning k v) s fun d => look k.val d.pw.temp = some v ∧ k.val ∈ d.pw.warned ∧
         (d.src 0x93).event = true ∧ d.pw = { s.dev.pw with
           temp := d.pw.temp, tempMax := d.pw.tempMax, warned := d.pw.warned } ∧
         s.dev.OnlyRegsSrcs { d with pw := s.dev.pw } [] [0x93]) ∧
     (∀ (k : Fin 50) v, s.dev.limitOf k * 10 ≤ v → k.val ∉ s.dev.pw.limited →
       (s.dev.setTemp k.val v).tooHot = false →
       Completes (.thermalLimit k v) s fun d => look k.val d.pw.temp = some v ∧ k.val ∈ d.pw.limited ∧
         d.pw.levelT = min 12 (s.dev.pw.levelT + 2) ∧ (d.src 0x94).event = true ∧
         (k.val = 0 → ∀ i, 2 ≤ i → i ≤ 17 → d.halfClock i = true) ∧ d.pw.slow = s.dev.pw.slow ∧
         s.dev.OnlySrcs d [0x94, 0x96] ∧ d.ses = s.dev.ses ∧ d.disp = s.dev.disp ∧ s.dev.OnlyGrants d) ∧
     (∀ reading e stay, e = (reading.filter fun r => decide (r.1 < 50)).foldl
         (fun (d : Dev) (r : Nat × Int) => d.setTemp r.1 r.2) s.dev → e.tooHot = false →
       stay = (s.dev.pw.limited.filter fun k => (e.sensorsAt 0).contains k) →
       Completes (.thermalLevelTick reading) s fun d =>
         d.pw.levelT = (if stay ≠ [] then min 12 (s.dev.pw.levelT + 2)
           else if e.allCool ∧ s.dev.pw.coolTicks = 9 then s.dev.pw.levelT - 1 else s.dev.pw.levelT) ∧
         (∀ k, k ∈ d.pw.limited ↔ k ∈ s.dev.pw.limited ∧ (k = 0 ∨ k ∈ stay)) ∧
         d.pw.temp = e.pw.temp ∧ s.dev.OnlySrcs d [0x96] ∧ d.ses = s.dev.ses ∧ d.disp = s.dev.disp ∧
         s.dev.OnlyGrants d) ∧
     (∀ (k : Fin 50) v, criticalOf k.val * 10 ≤ v →
       ∀ c ∈ [Instr.thermalWarning k v, .thermalLimit k v, .thermalLevelTick [(k.val, v)]],
         Completes c s fun d => d.pw.pfActive = true ∧ d.pw.pfCause = 4 ∧ (d.src 0x90).event = true ∧
           d.fld Base.pwr F.PWR_PF_CAUSE = 4 ∧ d.ses = s.dev.ses ∧ d.disp = s.dev.disp) ∧
     (∀ v, v < s.dev.limitOf 0 * 10 → 0 ∈ s.dev.pw.limited →
       Completes (.thermalBelowLimit v) s fun d => look 0 d.pw.temp = some v ∧
         (∀ k, k ∈ d.pw.limited ↔ k ∈ s.dev.pw.limited ∧ k ≠ 0) ∧
         (∀ i, d.halfClock i = s.dev.pw.slow.contains i) ∧ d.pw.slow = s.dev.pw.slow ∧
         { d with pw := s.dev.pw } = s.dev)) ∧
  (∀ s : State, s.alive →
     (∀ i : Fin 66, Completes (.droopTrip i) s (fun d => d.halfClock i = true ∧ i.val ∈ d.pw.slow ∧
         lookD i.val 0 d.pw.droops = (lookD i.val 0 s.dev.pw.droops + 1) % 2 ^ 32 ∧
         (∀ j, j ≠ i.val → lookD j 0 d.pw.droops = lookD j 0 s.dev.pw.droops) ∧ d.pw.droopMs ≠ [] ∧
         d.pw = { s.dev.pw with slow := d.pw.slow, droops := d.pw.droops, droopMs := d.pw.droopMs } ∧
         { d with pw := s.dev.pw } = s.dev) ∧
       Completes (.droopRecover i) s fun d => (∀ j, j ∈ d.pw.slow ↔ j ∈ s.dev.pw.slow ∧ j ≠ i.val) ∧
         d.halfClock i = s.dev.pw.slowT.contains i.val ∧
         d.pw = { s.dev.pw with slow := d.pw.slow } ∧ { d with pw := s.dev.pw } = s.dev) ∧
     (s.dev.pw.droopMs ≠ [] → Completes .droopMsReport s fun d => d.pw = { s.dev.pw with droopMs := [] } ∧
       (d.src 0x95).event = true ∧ s.dev.OnlyRegsSrcs { d with pw := s.dev.pw } [] [0x95]) ∧
     Completes .bankCharged s (fun d => d.pw = { s.dev.pw with charged := true } ∧
       { d with pw := s.dev.pw } = s.dev) ∧
     (∀ mj, s.dev.pw.charged = true →
       (s.dev.pw.testDue = true ∨ s.dev.fld Base.pwr F.PWR_HOLD_CTRL_TEST_H ≠ 0) →
       Completes (.bankTest mj) s fun d =>
       d.fld Base.pwr F.PWR_HOLD_ENERGY_MJ = min mj 16383 ∧
       d.fld Base.pwr F.PWR_HOLD_UNITS = min 1024 ((2000 * mj - 1200000) / 5859) ∧
       d.fld Base.pwr F.PWR_HOLD_HEALTH = (if 3600 ≤ mj then 1 else if 790 ≤ mj then 2 else 3) ∧
       d.pw = { s.dev.pw with capUnits := min 1024 ((2000 * mj - 1200000) / 5859), testDue := false } ∧
       d.boot = { s.dev.boot with bankHealth := d.fld Base.pwr F.PWR_HOLD_HEALTH } ∧
       (∀ m : Fin 16, d.sw m = { s.dev.sw m with units := (d.sw m).units } ∧
         ∀ u, look u (d.sw m).units = (look u (s.dev.sw m).units).map fun x =>
           if d.fld Base.pwr F.PWR_HOLD_UNITS ≤ u ∧ x.st = .held then { x with st := .draining } else x) ∧
       (d.fld Base.pwr F.PWR_HOLD_HEALTH ≠ s.dev.boot.bankHealth → (d.src 0x97).event = true ∧
         s.dev.Reported d 0x0901 Unit.power (if d.fld Base.pwr F.PWR_HOLD_HEALTH = 3 then 4 else 2) mj
           (d.fld Base.pwr F.PWR_HOLD_HEALTH)) ∧
       s.dev.OnlyNoted { d with pw := s.dev.pw, boot := s.dev.boot, sws := s.dev.sws }
         [(Base.pwr, F.PWR_HOLD_ENERGY_MJ),
         (Base.pwr, F.PWR_HOLD_UNITS), (Base.pwr, F.PWR_HOLD_HEALTH)] [0x97]))


/-! ### Discrete inputs and the chain's pins (chapter "Discrete inputs and the Aethem link") -/

/-- R76, R235, R464 to R468, R471: a change of HOLD_A or HOLD_B counts, rises its source and, when it is
an activation, empties and blocks the front cache until every swath has applied it, a swath that is not ready
applying it at its ready; a suspended input
only follows, one that changes too often is suspended, and a stuck one counts as inactive. -/
def Obligations.HoldInputsAreAcceptedAndApplied : Prop :=
  ∀ (s : State) (inp : HoldIn) (i : Discrete) (x : InputSt), i = holdToDiscrete inp → x = s.dev.input i →
    (∀ act times, x.active = !act →
      times = (x.recent.filter fun t => decide (s.dev.now < t + 60 * tickHz)) ++ [s.dev.now] →
      Completes (.holdInputChange inp act) s fun d =>
        d.fld Base.glb (F.GLB_IN_CHG_COUNT.at (inputNo i)) =
          (s.dev.fld Base.glb (F.GLB_IN_CHG_COUNT.at (inputNo i)) + 1) % 2 ^ 32 ∧
        (d.input i).active = act ∧ (d.input i).since = s.dev.io.hold ∧
        (x.susp = true → d.input i = { x with active := act, since := s.dev.io.hold } ∧
          s.dev.OnlyRegs { d with io := s.dev.io } [(Base.glb, F.GLB_IN_CHG_COUNT.at (inputNo i))]) ∧
        (x.susp = false → x.stuck = false → s.dev.flag Base.glb (inputFld F.GLB_IN_CFG_HA_EN i) = true →
          (d.src (if inp = .holdA then 0xA8 else 0xA9)).event = true ∧
          (times.length ≤ s.dev.fld Base.glb (inputFld F.GLB_IN_CFG_HA_CHAT_MAX i) →
            (d.input i).recent = times ∧ (act = true →
              d.disp.fcBlock = true ∧ d.disp.fc = [] ∧ inp ∈ d.io.applying ∧
              ∀ n, (s.dev.sw n).ready = false → (inp, s.dev.io.hold) ∈ (d.sw n).holdDue)) ∧
          (s.dev.fld Base.glb (inputFld F.GLB_IN_CFG_HA_CHAT_MAX i) < times.length →
            (d.input i).susp = true ∧ (d.input i).suspS = 600 ∧ (d.src 0xAB).event = true ∧
            s.dev.Reported d 0x0903 Unit.inputs 2 (inputNo i) 0 ∧ d.disp = s.dev.disp))) ∧
    (∀ act, x.active = act → Completes (.holdInputChange inp act) s fun d => d = s.dev) ∧
    (s.alive → inp ∈ s.dev.io.applying → (∀ n, (s.dev.sw n).ready = true → (s.dev.sw n).holding = false) →
      Completes (.holdApplyComplete inp) s fun d =>
        d.io = { s.dev.io with applying := s.dev.io.applying.filter (· != inp) } ∧
        d.disp = { s.dev.disp with fc := [], fcBlock := !d.io.applying.isEmpty } ∧
        { d with io := s.dev.io, disp := s.dev.disp } = s.dev) ∧
    (∀ start, x.active = true → x.stuck = false → x.susp = false →
      Completes (.inputStuck i start) s fun d => d.input i = { x with stuck := true } ∧
        (d.src 0xAA).event = true ∧ s.dev.Reported d 0x0902 Unit.inputs 2 (inputNo i) 0 ∧
        d.disp = s.dev.disp ∧ d.ses = s.dev.ses ∧ d.sws = s.dev.sws ∧ s.dev.OnlyFlds d [lostFld] ∧
        s.dev.OnlySrcs d [0xAA]) ∧
    (x.susp = true → Completes (.inputSuspendEnd i) s fun d =>
      (d.input i).susp = false ∧ (d.input i).suspS = 0 ∧ (d.input i).active = x.active ∧
      (x.active = true → s.dev.flag Base.glb (inputFld F.GLB_IN_CFG_HA_EN i) = true →
        (d.src (if inp = .holdA then 0xA8 else 0xA9)).event = true ∧ d.disp.fcBlock = true ∧ d.disp.fc = []) ∧
      (x.active = false → { d with io := s.dev.io } = s.dev))

/-- R466, R467, Table 11-8: an activation of RST_IN_N resets the drive, which is held until the pin is
released or stuck; sessions and commands are gone, the hash secret and placement stay.
R460, R461, R474: a chain receiver counts its code errors, locks after good symbols and loses lock with 16 errors or
a quiet input; a change of its lock or of a neighbour's presence is noted with source 0xAC, but not in the Heath envelope, where the chain's pins are inactive (R453); the activity lamp blinks in power wait and goes out after its pulse once the drive is
ready. -/
def Obligations.ResetPinChainPinsAndLampAct : Prop :=
  (∀ (s : State) (x : InputSt) (start : StartIn), x = s.dev.io.rst →
     (s.alive → x.active = false → x.susp = false → x.stuck = false →
       s.dev.flag Base.glb (inputFld F.GLB_IN_CFG_HA_EN .rstInN) = true →
       ((x.recent.filter fun t => decide (s.dev.now < t + 60 * tickHz)) ++ [s.dev.now]).length ≤
         s.dev.fld Base.glb (inputFld F.GLB_IN_CFG_HA_CHAT_MAX .rstInN) →
       Completes .rstInActivate s fun d => d.io.holdReset = true ∧ d.io.rst.active = true ∧
         d.boot.running = false ∧ d.boot.cause = 3 ∧ d.ses = .reset ∧ d.disp.cmds = [] ∧
         d.disp.secret = s.dev.disp.secret ∧ d.disp.plc = s.dev.disp.plc ∧ d.now = s.dev.now) ∧
     Completes (.rstInRelease start) s (fun d => d.io.holdReset = false ∧ d.io.rst.active = false ∧
       (s.dev.boot.running = true → d.boot = s.dev.boot ∧ d.ses = s.dev.ses ∧ d.disp = s.dev.disp ∧
         d.sws = s.dev.sws)) ∧
     (x.active = true → x.stuck = false → x.susp = false →
       Completes (.inputStuck .rstInN start) s fun d => d.io.holdReset = false ∧ d.io.rst.stuck = true ∧
         (d.src 0xAA).event = true) ∧
     (s.alive → x.susp = true → x.active = true →
       s.dev.flag Base.glb (inputFld F.GLB_IN_CFG_HA_EN .rstInN) = true →
       Completes (.inputSuspendEnd .rstInN) s fun d => d.io.holdReset = true ∧ d.boot.running = false ∧
         d.boot.cause = 3)) ∧
  (∀ (s : State) (up v : Bool), s.alive →
     (∀ rx old f, s.dev.chainOn = true → old = (if up then s.dev.io.upLock else s.dev.io.dnLock) →
       f = (if up then F.GLB_CHAIN_CODE_UP_COUNT else F.GLB_CHAIN_CODE_DN_COUNT) →
       Completes (.chainLockChange up rx) s fun d =>
         d.io = (if up then { s.dev.io with upLock := lockAfter old rx }
           else { s.dev.io with dnLock := lockAfter old rx }) ∧
         d.fld Base.glb f = (s.dev.fld Base.glb f + codeErrors rx) % 2 ^ 32 ∧
         (lockAfter old rx ≠ old → (d.src 0xAC).event = true) ∧
         s.dev.OnlyRegsSrcs { d with io := s.dev.io } [(Base.glb, f)] [0xAC]) ∧
     (s.dev.envelope = 2 → ∀ rx, exec (.chainPresenceChange up v) s = .next s ∧
       exec (.chainLockChange up rx) s = .next s) ∧
     (s.dev.envelope ≠ 2 → (if up then s.dev.io.upHere else s.dev.io.dnHere) = !v →
       Completes (.chainPresenceChange up v) s fun d =>
         d.io = (if up then { s.dev.io with upHere := v } else { s.dev.io with dnHere := v }) ∧
         (d.src 0xAC).event = true ∧ s.dev.OnlyRegsSrcs { d with io := s.dev.io } [] [0xAC]) ∧
     Completes .ledActTimer s (fun d => d.io = { s.dev.io with
         ledAct := if s.dev.pw.waiting then !s.dev.io.ledAct
           else if s.dev.flag Base.glb F.GLB_START_STAT_READY then false else s.dev.io.ledAct } ∧
       { d with io := s.dev.io } = s.dev)) ∧
  (∀ (s : State) (up v : Bool), s.dev.alive = false → s.dev.envelope ≠ 2 →
     Completes (.chainPresenceChange up v) s fun d =>
       d.io = (if up then { s.dev.io with upHere := v } else { s.dev.io with dnHere := v }) ∧
       { d with io := s.dev.io } = s.dev)

/-! ### Calendar and recorder (chapter "Calendar time and event records") -/

/-- R486, R489, R490, R492, R493, R497, R499, R500: TIME_SET is refused for an impossible time, while
LOCKED, or for a large step of a FREE calendar without OVERRIDE; otherwise the calendar steps to it with
its uncertainty and trust. A leap second adds or leaves out a second; a slew ends; the reading is saved;
trust is lost when the uncertainty exceeds its limit.
R607: an estimate of the backup cell's reserve is shown, below 3 days as low; the first low one since
a start or since 5 days raises its source and is recorded. -/
def Obligations.TheCalendarIsSetSavedAndWatched : Prop :=
  (∀ s : State, s.alive →
     (∀ cid q c stamp un gap, s.dev.Asks cid Op.timeSet q c → stamp = fieldBe q.payload 0 8 →
       un = fieldBe q.payload 8 4 → gap = (if stamp < s.dev.cal.tick then s.dev.cal.tick - stamp
         else stamp - s.dev.cal.tick) →
       (stamp / 1024 < 1704067200 → Completes (.timeSet cid) s fun d =>
         s.dev.Answered d cid St.malformed (be 8 s.dev.cal.tick ++ be 1 s.dev.trust ++ zeros 3) ∧
         s.dev.OnlyAnswer d q.sid) ∧
       (1704067200 ≤ stamp / 1024 → s.dev.trust = 2 → Completes (.timeSet cid) s fun d =>
         s.dev.Answered d cid St.busy (be 8 s.dev.cal.tick ++ be 1 2 ++ zeros 3) ∧ s.dev.OnlyAnswer d q.sid) ∧
       (1704067200 ≤ stamp / 1024 → s.dev.trust = 1 →
         s.dev.fld Base.cal F.CAL_CTRL_SET_MAX_S * 1024 < gap → s.dev.hasPerm c 8 = false →
         Completes (.timeSet cid) s fun d =>
           s.dev.Answered d cid St.permission (be 8 s.dev.cal.tick ++ be 1 1 ++ zeros 3) ∧
           s.dev.OnlyAnswer d q.sid) ∧
       (1704067200 ≤ stamp / 1024 → s.dev.trust ≠ 2 →
         (s.dev.trust ≠ 1 ∨ gap ≤ s.dev.fld Base.cal F.CAL_CTRL_SET_MAX_S * 1024 ∨ s.dev.hasPerm c 8 = true) →
         Completes (.timeSet cid) s fun d =>
           s.dev.Answered d cid St.ok (be 8 s.dev.cal.tick ++ be 1 d.trust ++ zeros 3) ∧ d.cal.tick = stamp ∧
           d.cal.uncertUs = un * 1000 ∧ d.cal.slew = 0 ∧ d.fld Base.cal F.CAL_STAT_VALID = 1 ∧
           d.trust = (if un ≤ s.dev.fld Base.cal F.CAL_CTRL_MAX_UNCERT_S * 1000 then 1 else 0) ∧
           (stamp ≠ s.dev.cal.tick → s.dev.evr.intake.length < 256 →
             s.dev.Reported d 0x0102 Unit.calendar 1 (min (gap / 1024) 0xFFFFFFFF)
               (1 + if stamp < s.dev.cal.tick then 2 ^ 31 else 0)) ∧
           d.boot = s.dev.boot ∧ d.sws.map (·.keys) = s.dev.sws.map (·.keys))) ∧
     (∀ pos day, s.dev.cal.leap = some (pos, day) → s.dev.calSec + 1 = day →
       Completes .leapSecond s fun d => d.cal = { s.dev.cal with
           leap := none, hold := if pos then 1024 else 0
           tick := if pos then s.dev.cal.tick else s.dev.cal.tick + 1024 } ∧
         (s.dev.evr.intake.length < 256 → s.dev.Reported d 0x0102 Unit.calendar 1 1
           (2 + if pos then 2 ^ 31 else 0)) ∧
         d.ses = s.dev.ses ∧ d.disp = s.dev.disp ∧ d.sws = s.dev.sws) ∧
     (s.dev.cal.slew = 0 → Completes .slewEnd s fun d => d.fld Base.cal F.CAL_STAT_SLEWING = 0 ∧
       d.cal = { s.dev.cal with slewAcc := 0 } ∧
       s.dev.OnlyRegs { d with cal := s.dev.cal } [(Base.cal, F.CAL_STAT_SLEWING)]) ∧
     Completes .calJournalSave s (fun d => d.cal = { s.dev.cal with
         saved := s.dev.cal.tick, savedU := s.dev.cal.uncertUs, savedTrust := s.dev.trust } ∧
       { d with cal := s.dev.cal } = s.dev) ∧
     (s.dev.trust ≠ 0 → s.dev.maxUncertMs < s.dev.uncertMs → Completes .trustUncertExceeded s fun d =>
       d.trust = 0 ∧ (d.src 0xA0).event = true ∧ s.dev.Reported d 0x0101 Unit.calendar 2 0 s.dev.trust ∧
       s.dev.OnlyNoted d [(Base.cal, F.CAL_STAT_TRUST)] [0xA0])) ∧
  (∀ (s : State) (days : Nat), s.alive →
     (days < 3 → Completes (.cellLowDetect days) s fun d => d.fld Base.cal F.CAL_CELL_DAYS = days ∧
       d.fld Base.cal F.CAL_STAT_CELL_LOW = 1 ∧ d.cal = { s.dev.cal with hadMin := true } ∧
       (s.dev.cal.hadMin = false → (d.src 0xA2).event = true ∧
         s.dev.Reported d 0x0104 Unit.calendar 2 days 0) ∧
       s.dev.OnlyNoted { d with cal := s.dev.cal } [(Base.cal, F.CAL_CELL_DAYS),
         (Base.cal, F.CAL_STAT_CELL_LOW)] [0xA2]) ∧
     (3 ≤ days → Completes (.cellReserveRecover days) s fun d =>
       d.fld Base.cal F.CAL_CELL_DAYS = min days 255 ∧ d.fld Base.cal F.CAL_STAT_CELL_LOW = 0 ∧
       d.cal = { s.dev.cal with hadMin := s.dev.cal.hadMin && decide (days < 5) } ∧
       s.dev.OnlyRegs { d with cal := s.dev.cal } [(Base.cal, F.CAL_CELL_DAYS), (Base.cal, F.CAL_STAT_CELL_LOW)]))

/-- R494 to R498, R610: an acceptable master is chosen where there is none or where it is better; each Sync
steers the counter by its offset, and the sixteenth within 1 µs locks, setting an untrusted calendar to the
target, and after each the drive sends an event message of its own, which is stamped as it leaves (which one, and
when, is the model's choice, log entry 90); when Syncs cease lock is lost, and when Announces cease no master is chosen. -/
def Obligations.PtpChoosesMastersAndLocks : Prop :=
  ∀ (s : State) (p : PortId), s.alive → s.dev.ptpOn p = true →
    (∀ an, s.dev.acceptable an = true →
      (s.dev.cal.master = none ∨
        ∃ m, s.dev.cal.master = some m ∧ m.gm ≠ an.gm ∧ an.better = true) →
      Completes (.ptpAnnounce p an) s fun d => d.cal.master = some ⟨p, an.gm, an.utcOffset⟩ ∧
        d.fld Base.cal F.CAL_PTP_STAT_STATE = 2 ∧ d.fld Base.cal F.CAL_PTP_STAT_PORT = p.idx ∧
        d.cal.tick = s.dev.cal.tick ∧ (s.dev.cal.master ≠ none → s.dev.ptpState = 3 → s.dev.trust = 2 →
          d.trust = 1 ∧ d.cal.uncertUs = 2000 ∧ (d.src 0xA1).event = true) ∧
        d.ses = s.dev.ses ∧ d.disp = s.dev.disp ∧ d.sws = s.dev.sws) ∧
    (∀ an, s.dev.acceptable an = false → Completes (.ptpAnnounce p an) s fun d =>
      d.cal.master = s.dev.cal.master ∧ d.cal.tick = s.dev.cal.tick ∧ { d with cal := s.dev.cal } = s.dev) ∧
    (∀ m off k t, s.dev.cal.master = some m → m.port = p →
      k = (if -1000 ≤ off ∧ off ≤ 1000 then min 16 (s.dev.cal.inRange + 1) else 0) →
      t = (((s.dev.ptpNow : Int) - off).toNat - m.utc * 1000000000) * 1024 / 1000000000 →
      Completes (.ptpSync p off) s fun d => d.ptpNow = ((s.dev.ptpNow : Int) - off).toNat ∧
        d.cal.offset = max (-2147483648) (min 2147483647 off) ∧ d.cal.inRange = k ∧ d.cal.master = some m ∧
        (∃ e, (d.port p).txq = (s.dev.port p).txq ++ [e] ∧ e.item = .delayReq) ∧ s.dev.OnlyPort d p ∧
        (¬(s.dev.ptpState = 2 ∧ k = 16) → d.trust = s.dev.trust ∧ d.ptpState = s.dev.ptpState) ∧
        (s.dev.ptpState = 2 → k = 16 → d.ptpState = 3 ∧
          (s.dev.trust = 0 → d.cal.tick = t ∧ d.trust = 2 ∧ d.cal.uncertUs = 2000 ∧
            d.fld Base.cal F.CAL_STAT_VALID = 1)) ∧
        d.ses = s.dev.ses ∧ d.disp = s.dev.disp ∧ d.sws = s.dev.sws) ∧
    (s.dev.ptpState = 3 → Completes .ptpSyncLoss s fun d => d.cal.master = none ∧ d.ptpState = 1 ∧
      d.cal.inRange = 0 ∧ (d.src 0xA1).event = true ∧ s.dev.Reported d 0x0103 Unit.calendar 2 0 0 ∧
      (s.dev.trust = 2 → d.trust = 1 ∧ d.cal.uncertUs = 2000) ∧ d.ses = s.dev.ses ∧ d.disp = s.dev.disp) ∧
    (s.dev.cal.master ≠ none → Completes .announceTimeout s fun d => d.ptpState = 1 ∧
      d.cal = { s.dev.cal with master := none, inRange := 0, offset := 0 } ∧
      s.dev.OnlyRegs { d with cal := s.dev.cal } [(Base.cal, F.CAL_PTP_STAT_STATE),
        (Base.cal, F.CAL_PTP_STAT_PORT), (Base.cal, F.CAL_PTP_STAT_UTC_OFFSET)])

/-- R501 to R505, R507, R510, R606: the oldest event leaves the intake for its accumulator, an immediate or
marker record is stored at once; the end of an interval stores each accumulator's summary; sampled
measures are reported; RECORD_READ answers the records from an index and a severity on. -/
def Obligations.TheRecorderKeepsItsRecords : Prop :=
  ∀ s : State, s.alive →
    (∀ e t, s.dev.evr.intake = e :: t → s.dev.evrRuns = true →
      Completes .eventIntake s fun d => d.evr.intake = t ∧
        (isMarker e.code = false → (∃ a ∈ s.dev.evr.accums, Accum.holds e a = true) →
          d.evr = { s.dev.evr with
            intake := t
            accums := s.dev.evr.accums.map fun a => if Accum.holds e a then Accum.add e a else a }) ∧
        (isMarker e.code = false → (∀ a ∈ s.dev.evr.accums, Accum.holds e a = false) →
          s.dev.evr.accums.length < 1024 → d.evr.accums = s.dev.evr.accums ++ [Accum.fresh e] ∧
          (e.sev < s.dev.fld Base.cal F.EVR_CTRL_IMM_SEV → d.evr.recs = s.dev.evr.recs)) ∧
        (∀ k, (isMarker e.code = true ∧ k = 2 ∨ isMarker e.code = false ∧ k = 1 ∧
            (∀ a ∈ s.dev.evr.accums, Accum.holds e a = false) ∧ s.dev.evr.accums.length < 1024 ∧
            s.dev.fld Base.cal F.EVR_CTRL_IMM_SEV ≤ e.sev) →
          s.dev.evr.lostPend = 0 → s.dev.evr.recs.length < 524288 →
          (∀ l, s.dev.evr.recs.getLast? = some l → (oneRec e k).repeatOf l = false) →
          d.evr.recs = s.dev.evr.recs ++ [{ oneRec e k with index := s.dev.evr.next }] ∧
          d.evr.next = s.dev.evr.next + 1) ∧
        { d with regs := s.dev.regs, irq := { d.irq with src := s.dev.irq.src }, evr := s.dev.evr } = s.dev) ∧
    (∀ c ∈ [Instr.intervalClose, .closeNow], s.dev.evrRuns = true →
      Completes c s fun d => d.evr.accums = [] ∧ d.evr.intake = s.dev.evr.intake ∧
        (s.dev.evr.accums = [] → d.evr = { s.dev.evr with overThis := false }) ∧
        (∀ a, s.dev.evr.accums = [a] → s.dev.evr.lostPend = 0 → s.dev.evr.recs.length < 524288 →
          (∀ l, s.dev.evr.recs.getLast? = some l → (a.summary false).repeatOf l = false) →
          d.evr.recs = s.dev.evr.recs ++ [{ a.summary false with index := s.dev.evr.next }]) ∧
        { d with regs := s.dev.regs, irq := { d.irq with src := s.dev.irq.src }, evr := s.dev.evr } = s.dev) ∧
    (∀ mw ctrl nand pkg, Completes (.measureSample mw ctrl nand pkg) s fun d =>
      s.dev.Reported d 0x0201 Unit.power 0 mw 0 ∧
      s.dev.Reported d 0x0202 Unit.power 0 (unsignedOf 32 ctrl) 0 ∧
      s.dev.Reported d 0x0203 Unit.power 0 (unsignedOf 32 nand) pkg ∧
      s.dev.Reported d 0x0204 Unit.power 0 s.dev.level 0 ∧ s.dev.OnlyNoted d [] []) ∧
    (∀ cid q c good, s.dev.Asks cid Op.recordRead q c → (∀ r ∈ s.dev.evr.recs, r.bad = false) →
      good = (s.dev.evr.recs.filter fun r => decide (fieldBe q.payload 0 4 ≤ r.index) &&
        decide (fieldBe q.payload 6 1 ≤ r.sev)).take (fieldBe q.payload 4 2) →
      (fieldBe q.payload 6 1 ≤ 4 → Completes (.recordRead cid) s fun d =>
        (∃ next, s.dev.Answered d cid St.ok (be 4 next ++ be 2 good.length ++ zeros 2 ++
            good.flatMap Rec.bytes) ∧
          (∀ r, good.getLast? = some r → good.length = fieldBe q.payload 4 2 → next = r.index + 1)) ∧
        s.dev.OnlyFlds d [] ∧ s.dev.OnlyAnswer { d with regs := s.dev.regs } q.sid) ∧
      (4 < fieldBe q.payload 6 1 → Completes (.recordRead cid) s fun d =>
        s.dev.Answered d cid St.malformed [] ∧ s.dev.OnlyAnswer d q.sid))
/-! ### Starts, shutdown and trials (chapter "Start, shutdown and update") -/

/-- R410, R464, R515, R517: at power-good a drive that nothing holds starts, also one that RST_IN_N held when it lost
its power: it runs, its access windows are
locked, its activity lamp is lit, and no swath is ready yet; one that already runs, or that a
power-fail or a critical temperature holds, stays as it is. R433: a thermal restart starts the drive once
all sensors are cool. R542: a trial some swath of which has reported neither ready, nor
rebuilding, nor offline counts a failed try and the drive starts again; in power wait none counts.
R435, R518, R519: a swath reports ready once the bank is charged and tested; with the last of them the
drive is ready, its start is recorded and its jobs resume. -/
def Obligations.StartsBringTheDriveUpAndSwathsReady : Prop :=
  (∀ (s : State) (i : StartIn),
     (s.dev.boot.running = false → s.dev.pw.pfActive = false →
       s.dev.pw.stopped = false → s.dev.powerBack.CanStart i →
       Completes (.powerGoodStart i) s fun d => d.Started ∧ d.io.holdReset = false) ∧
     ((s.dev.boot.running = true ∨ s.dev.pw.pfActive = true ∨ s.dev.pw.stopped = true) → Completes (.powerGoodStart i) s fun d => d = s.dev) ∧
     (∀ reading e, s.dev.boot.running = false → s.dev.pw.pfActive = false → s.dev.io.holdReset = false →
       s.dev.pw.stopped = true →
       e = (reading.filter fun r => decide (r.1 < 50)).foldl (fun d r => d.setTemp r.1 r.2)
         (s.dev.setReg 0x10048 (s.dev.imageWord 0x10048)) →
       (e.allCool = true → ({ e with pw := { e.pw with stopped := false } }).CanStart i →
         Completes (.thermalRestart i reading) s fun d => d.Started) ∧
       (e.allCool = false → Completes (.thermalRestart i reading) s fun d =>
         d = e ∧ d.pw.stopped = true ∧ d.boot = s.dev.boot)) ∧
     (s.alive → s.dev.boot.inTrial = true → s.dev.pw.waiting = false →
       (∃ n, (s.dev.sw n).ready = false ∧ (s.dev.sw n).failed = false ∧ (s.dev.sw n).leftOff = false ∧
         (s.dev.sw n).rebuild = []) → (s.dev.failTry.driveReset 2).CanStart i →
       Completes (.trialWatchdog i) s fun d => d.Started) ∧
     (s.alive → (s.dev.boot.inTrial = false ∨ s.dev.pw.waiting = true ∨
         ∀ n, (s.dev.sw n).ready = true ∨ (s.dev.sw n).failed = true ∨ (s.dev.sw n).leftOff = true ∨
           (s.dev.sw n).rebuild ≠ []) →
       Completes (.trialWatchdog i) s fun d => d = s.dev)) ∧
  (∀ (s : State) (n : Fin 16), s.alive →
     ((s.dev.sw n).ready = true ∨ (s.dev.sw n).failed = true ∨ s.dev.pw.charged = false ∨
         s.dev.fld Base.pwr F.PWR_HOLD_HEALTH = 0 ∨ s.dev.fld Base.pwr F.PWR_HOLD_HEALTH = 3 →
       Completes (.swathReady n) s fun d => d = s.dev) ∧
     ((s.dev.sw n).ready = false → (s.dev.sw n).failed = false → (s.dev.sw n).leftOff = false →
       s.dev.resetting (.swath n) = false → s.dev.pw.waiting = false → s.dev.pw.charged = true →
       s.dev.fld Base.pwr F.PWR_HOLD_HEALTH ≠ 0 → s.dev.fld Base.pwr F.PWR_HOLD_HEALTH ≠ 3 →
       Completes (.swathReady n) s fun d => (d.sw n).ready = true ∧ s.dev.OnlySwath d n ∧
         ((∀ m, m ≠ n → (s.dev.sw m).ready = true ∨ (s.dev.sw m).failed = true ∨
             (s.dev.sw m).leftOff = true) →
           s.dev.flag Base.glb F.GLB_START_STAT_READY = false →
           d.flag Base.glb F.GLB_START_STAT_READY = true ∧ d.io.ledAct = false ∧
           s.dev.Reported d 0x0001 Unit.steward 0 (s.dev.fld Base.glb F.GLB_START_STAT_CAUSE)
             s.dev.boot.runVer ∧ (∀ e ∈ d.adm.jobs, e.2.st ≠ 4))))

/-- R520 to R522: SHUTDOWN sets SHUTTING and starts a checkpoint pass on every ready swath; once every
data command is complete and every swath drained the mark is written, SHUT_DONE is set and, where a
restart was asked for, the drive goes down for it.
R544, R545, R555: a confirmed firmware trial becomes ACTIVE, its fallback SUPERSEDED, and the
anti-rollback counter rises to its security version; CONFIRM confirms a settings trial as well. R556: a
settings trial whose guard time ends gives its place back and the drive shuts down to start again. R547,
R548: a migration ends when every swath has finished. R538: an activation with a time begins when trusted
time reaches it. -/
def Obligations.ShutdownsTrialsAndMigrations : Prop :=
  (∀ s : State, s.alive →
     (s.dev.shutting = false → Completes .shutdown s fun d =>
       d.flag Base.glb F.GLB_START_STAT_SHUTTING = true ∧
       (∀ n, (s.dev.sw n).ready = true → (d.sw n).pass.isSome = true) ∧
       (∀ n, (d.sw n).keys = (s.dev.sw n).keys ∧ (d.sw n).map = (s.dev.sw n).map) ∧
       s.dev.OnlyRegs { d with sws := s.dev.sws } [(Base.glb, F.GLB_START_STAT_SHUTTING)]) ∧
     (s.dev.shutting = true → Completes .shutdown s fun d => d = s.dev) ∧
     (s.dev.flag Base.glb F.GLB_START_STAT_SHUTTING = true →
       (∀ e ∈ s.dev.disp.cmds, isData e.2.op = true → e.2.st = .complete) →
       (∀ n, (s.dev.sw n).ready = true → (s.dev.sw n).drained = true) →
       (s.dev.boot.restart = false → Completes .shutdownComplete s fun d =>
         d.boot = { s.dev.boot with clean := true } ∧ d.flag Base.glb F.GLB_START_STAT_SHUTTING = false ∧
         d.flag Base.glb F.GLB_START_STAT_SHUT_DONE = true ∧
         s.dev.OnlyRegs { d with boot := s.dev.boot }
           [(Base.glb, F.GLB_START_STAT_SHUTTING), (Base.glb, F.GLB_START_STAT_SHUT_DONE)]) ∧
       (s.dev.boot.restart = true → Completes .shutdownComplete s fun d =>
         d.boot.running = false ∧ d.boot.cause = 2 ∧ d.boot.restart = false ∧ d.ses = .reset ∧
         d.disp.cmds = [])) ∧
     ((s.dev.flag Base.glb F.GLB_START_STAT_SHUTTING = false ∨
         (∃ e ∈ s.dev.disp.cmds, isData e.2.op = true ∧ e.2.st ≠ .complete) ∨
         (∃ n, (s.dev.sw n).ready = true ∧ (s.dev.sw n).drained = false)) →
       Completes .shutdownComplete s fun d => d = s.dev)) ∧
  (∀ s : State, s.alive →
     (∀ x, s.dev.boot.fwIn .trial = some x →
       Completes .confirm s (fun d => s.dev.Confirmed d x ∧
         (s.dev.boot.setA = .trial → d.boot.setA = .active) ∧
         (s.dev.boot.setB = .trial → d.boot.setB = .active)) ∧
       (s.dev.flag Base.glb F.GLB_START_STAT_READY = true → s.dev.fld Base.glb F.GLB_BOOT_CTRL_CONFIRM_S ≠ 0 →
         Completes .trialConfirmTimer s fun d => s.dev.Confirmed d x ∧ d.boot.setA = s.dev.boot.setA ∧
           d.boot.setB = s.dev.boot.setB)) ∧
     (s.dev.boot.fwIn .trial = none → s.dev.boot.setA = .trial →
       Completes .confirm s fun d => d.boot.setA = .active ∧ (s.dev.boot.setB = .fallback → d.boot.setB = .superseded) ∧
         { d with boot := s.dev.boot } = s.dev) ∧
     ((s.dev.flag Base.glb F.GLB_START_STAT_READY = false ∨ s.dev.fld Base.glb F.GLB_BOOT_CTRL_CONFIRM_S = 0) →
       Completes .trialConfirmTimer s fun d => d = s.dev) ∧
     (s.dev.boot.setA = .trial → s.dev.boot.setB = .fallback →
       s.dev.fld Base.glb F.GLB_BOOT_CTRL_SET_GUARD_M ≠ 0 →
       Completes .settingsGuardTimeout s fun d => d.boot.setA = .empty ∧ d.boot.setB = .active ∧
         d.boot.restart = true ∧ d.shutting = true ∧
         s.dev.Reported d 0x0B05 Unit.steward 3 0 s.dev.boot.seriesLow) ∧
     (s.dev.boot.setIn .trial = none → Completes .settingsGuardTimeout s fun d => d = s.dev) ∧
     (s.dev.flag Base.glb F.GLB_START_STAT_MIGRATING = true →
       ((∀ n, (s.dev.sw n).failed = true ∨ n.val ∈ s.dev.boot.migrated) →
         Completes .migrationComplete s fun d =>
           d.boot = { s.dev.boot with
             journalFormats := s.dev.boot.formatsOf s.dev.boot.fwSlotB, migrated := [] } ∧
           d.flag Base.glb F.GLB_START_STAT_MIGRATING = false ∧ (d.src 0xB4).event = true ∧
           s.dev.Reported d 0x0B06 Unit.steward 1 0 (s.dev.boot.formatsOf s.dev.boot.fwSlotB).toNat ∧
           s.dev.OnlyNoted { d with boot := s.dev.boot } [(Base.glb, F.GLB_START_STAT_MIGRATING)] [0xB4]) ∧
       (∀ n, (s.dev.sw n).failed = false → n.val ∉ s.dev.boot.migrated →
         Completes .migrationComplete s fun d => d = s.dev)) ∧
     (s.dev.boot.whenAt ≠ 0 → s.dev.boot.whenAt ≤ s.dev.cal.tick → s.dev.trusted = true →
       (s.dev.boot.fwIn .pending).isSome = true →
       Completes .activationWhen s fun d => d.boot.whenAt = 0 ∧ d.boot.restart = true ∧ d.shutting = true ∧
         d.boot.fwA = s.dev.boot.fwA ∧ d.boot.fwB = s.dev.boot.fwB) ∧
     ((s.dev.boot.whenAt = 0 ∨ s.dev.cal.tick < s.dev.boot.whenAt ∨ s.dev.trusted = false) →
       Completes .activationWhen s fun d => d = s.dev))

/-! ### Settings and firmware images (chapter "Start, shutdown and update") -/

/-- R549 to R552: a settings image that passes its checks stands PENDING in the slot not in use, the other
slot stays as FALLBACK; one that fails is answered with its REASON, one that cannot be cut into sections
with MALFORMED, and the slots stay.
R537, R538: IMAGE_ACTIVATE makes a STORED image whose conditions hold PENDING and the running slot
FALLBACK; IMAGE_ID 0 takes a pending activation back. R539, R540: ACTIVATE from the chain does the same
with its time staggered by position, and a drive that cannot take part sends REFUSE upstream. -/
def Obligations.SettingsAndActivation : Prop :=
  (∀ (s : State) (cid : Nat) (q : Cmd) (c : Ctx) (sig : Bool), s.alive → s.dev.Asks cid Op.settingsWrite q c →
     (parseSettings q.payload = none → Completes (.settingsWrite cid sig) s fun d =>
       s.dev.Answered d cid St.malformed (zeros 4) ∧ s.dev.OnlyAnswer d q.sid) ∧
     (∀ x, parseSettings q.payload = some x →
       (s.dev.settingsReason x sig ≠ 0 → Completes (.settingsWrite cid sig) s fun d =>
         s.dev.Answered d cid (reasonStatus (s.dev.settingsReason x sig))
           (be 1 (s.dev.settingsReason x sig) ++ zeros 3) ∧ s.dev.OnlyAnswer d q.sid) ∧
       (s.dev.settingsReason x sig = 0 → Completes (.settingsWrite cid sig) s fun d =>
         s.dev.Answered d cid St.ok (zeros 4) ∧ d.boot.setOf s.dev.boot.idleSet = .pending ∧
         d.boot.img s.dev.boot.idleSet = some x ∧ d.boot.set_ = s.dev.boot.set_ ∧
         (s.dev.boot.setOf (!s.dev.boot.idleSet) = .active →
           d.boot.setOf (!s.dev.boot.idleSet) = .fallback) ∧
         s.dev.OnlyAnswer { d with boot := s.dev.boot } q.sid))) ∧
  ((∀ (s : State) (cid : Nat) (q : Cmd) (c : Ctx), s.alive → s.dev.Asks cid Op.imageActivate q c →
      (fieldBe q.payload 0 4 = 0 → ∀ x, s.dev.boot.fwIn .pending = some x →
        Completes (.imageActivate cid) s fun d => s.dev.Answered d cid St.ok [] ∧ d.boot.fw x = .stored ∧
          (s.dev.boot.fw (!x) = .fallback → d.boot.fw (!x) = .active) ∧ d.boot.whenAt = 0 ∧
          s.dev.OnlyAnswer { d with boot := s.dev.boot } q.sid) ∧
      (fieldBe q.payload 0 4 ≠ 0 → ∀ o, (s.dev.boot.storedSlot fun _ k => k == fieldBe q.payload 0 4) = o →
        (o = none → Completes (.imageActivate cid) s fun d =>
          s.dev.Answered d cid St.malformed [] ∧ s.dev.OnlyAnswer d q.sid) ∧
        (∀ x, o = some x →
          (s.dev.boot.activateStatus x ≠ St.ok → Completes (.imageActivate cid) s fun d =>
            s.dev.Answered d cid (s.dev.boot.activateStatus x) [] ∧ s.dev.OnlyAnswer d q.sid) ∧
          (s.dev.boot.activateStatus x = St.ok → Completes (.imageActivate cid) s fun d =>
            s.dev.Answered d cid St.ok [] ∧ d.boot.fw x = .pending ∧
            (x = (!s.dev.boot.fwSlotB) → d.boot.fw s.dev.boot.fwSlotB = .fallback) ∧
            d.boot.whenAt = fieldBe q.payload 8 8 ∧ (d.src 0xB2).event = true ∧ s.dev.OnlySrcs d [0xB2] ∧
            d.regs = s.dev.regs)))) ∧
   (∀ (s : State) (f : ChainFrame) (pass : List ChainOut), s.alive → s.dev.Takes 6 f →
      pass = s.dev.chainFrames true 6 (f.hop + 1) f.offset f.xfer f.payload →
      (s.dev.flag Base.glb F.GLB_UPD_CTRL_ACCEPT_CHAIN = false → Completes (.activate f) s fun d =>
        d.boot.chainOut = s.dev.boot.chainOut ++ pass ++ s.dev.refusal f.hop 7 f.xfer ∧
        d.boot.fwA = s.dev.boot.fwA ∧ d.boot.fwB = s.dev.boot.fwB ∧ { d with boot := s.dev.boot } = s.dev) ∧
      (∀ x, s.dev.flag Base.glb F.GLB_UPD_CTRL_ACCEPT_CHAIN = true →
        (s.dev.boot.storedSlot fun h _ => sha384 h.bytes == slice f.payload 0 48) = some x →
        s.dev.boot.activateStatus x = St.ok → Completes (.activate f) s fun d =>
          d.boot.chainOut = s.dev.boot.chainOut ++ pass ∧ d.boot.fw x = .pending ∧
          d.boot.whenAt = (if fieldBe f.payload 48 8 = 0 then 0
            else fieldBe f.payload 48 8 + f.hop * fieldBe f.payload 60 2 * tickHz) ∧
          (d.src 0xB2).event = true ∧ s.dev.OnlySrcs d [0xB2])))

/-- R526 to R528: a header that passes begins a transfer into the slot that does not run; one that fails
is answered with its REASON. R529, R530: data in order is appended; the last byte lets the digest decide
between storing and REASON 5; data out of order is REASON 6, and another image's MALFORMED. R531: the
stored image's slot is STORED; an image with no data for 60 s is dropped. -/
def Obligations.ImagesAreTransferredAndStored : Prop :=
  (∀ (s : State) (cid : Nat) (q : Cmd) (c : Ctx) (v : HdrVerdict) (id : BitVec 32) (r : Nat), s.alive →
     s.dev.Asks cid Op.imageBegin q c → id ≠ 0 → id.toNat ≠ s.dev.boot.idA → id.toNat ≠ s.dev.boot.idB →
     r = s.dev.hdrReason q.payload v →
     (r = 0 → Completes (.imageBegin cid v id) s fun d =>
       s.dev.Answered d cid St.ok (be 4 id.toNat ++ zeros 4) ∧
       (∃ t, d.boot.xfer = some t ∧ t.id = id ∧ t.got = 0 ∧ t.data = [] ∧ t.hdr = fwHdrOf q.payload ∧
         t.chain = false ∧ t.storing = false) ∧
       d.boot.fw (!s.dev.boot.fwSlotB) = .empty ∧ d.fld Base.glb F.GLB_UPD_STAT_XFER = 1 ∧
       d.fld Base.glb F.GLB_UPD_BYTES_COUNT = 0) ∧
     (r ≠ 0 → Completes (.imageBegin cid v id) s fun d =>
       s.dev.Answered d cid (reasonStatus r) (zeros 4 ++ be 1 r ++ zeros 3) ∧ d.boot = s.dev.boot ∧
       d.fld Base.glb F.GLB_UPD_STAT_REASON = r ∧ (d.src 0xB1).event = true ∧
       s.dev.Reported d 0x0B02 Unit.steward 2 r 0xFF)) ∧
  (∀ (s : State) (cid : Nat) (q : Cmd) (c : Ctx) (ok : Bool) (t : Transfer) (n : Nat), s.alive →
     s.dev.Asks cid Op.imageData q c → s.dev.boot.xfer = some t → n = t.got + (q.payload.drop 8).length →
     (t.id = word32 q.payload 0 → t.chain = false → t.storing = false →
       (fieldBe q.payload 4 4 ≠ t.got → Completes (.imageData cid ok) s fun d =>
         s.dev.Answered d cid (reasonStatus 6) (be 4 t.got ++ be 1 6 ++ zeros 3) ∧
         s.dev.OnlyAnswer d q.sid) ∧
       (fieldBe q.payload 4 4 = t.got → n < t.hdr.len → Completes (.imageData cid ok) s fun d =>
         s.dev.Answered d cid St.ok (be 4 n ++ be 1 0 ++ zeros 3) ∧
         d.boot.xfer = some { t with got := n, data := t.data ++ q.payload.drop 8, gap := false } ∧
         d.fld Base.glb F.GLB_UPD_BYTES_COUNT = n % 2 ^ 32) ∧
       (fieldBe q.payload 4 4 = t.got → n = t.hdr.len → Completes (.imageData cid ok) s fun d =>
         (ok = true → s.dev.Answered d cid St.ok (be 4 n ++ be 1 0 ++ zeros 3) ∧
           d.boot.xfer = some { t with
             got := n, data := t.data ++ q.payload.drop 8, gap := false, storing := true } ∧
           d.fld Base.glb F.GLB_UPD_STAT_XFER = 3) ∧
         (ok = false → s.dev.Answered d cid (reasonStatus 5) (be 4 n ++ be 1 5 ++ zeros 3) ∧
           d.boot.xfer = none ∧ d.fld Base.glb F.GLB_UPD_STAT_XFER = 5 ∧
           d.fld Base.glb F.GLB_UPD_STAT_REASON = 5 ∧ (d.src 0xB1).event = true))) ∧
     (t.id ≠ word32 q.payload 0 → Completes (.imageData cid ok) s fun d =>
       s.dev.Answered d cid St.malformed [] ∧ s.dev.OnlyAnswer d q.sid)) ∧
  (∀ (s : State) (t : Transfer) (x : Bool), s.alive → s.dev.boot.xfer = some t → x = (!s.dev.boot.fwSlotB) →
     (t.storing = true →
       Completes (.imageStoreComplete true) s (fun d => d.boot.xfer = none ∧ d.boot.fw x = .stored ∧
         d.boot.hdr x = some t.hdr ∧ d.boot.fw (!x) = s.dev.boot.fw (!x) ∧
         d.fld Base.glb F.GLB_UPD_STAT_XFER = 4 ∧ (d.src 0xB0).event = true ∧
         s.dev.Reported d 0x0B01 Unit.steward 1 t.hdr.len t.hdr.fwVer) ∧
       Completes (.imageStoreComplete false) s (fun d => d.boot = { s.dev.boot with xfer := none } ∧
         d.fld Base.glb F.GLB_UPD_STAT_XFER = 5 ∧ d.fld Base.glb F.GLB_UPD_STAT_REASON = 5 ∧
         (d.src 0xB1).event = true)) ∧
     (t.storing = false →
       Completes .imageTransferTimeout s (fun d => d.boot = { s.dev.boot with xfer := none } ∧
         d.job 5 0 = none ∧
         s.dev.OnlyRegs { d with boot := s.dev.boot, adm := s.dev.adm } [(Base.glb, F.GLB_UPD_STAT_XFER)])))

/-! ### Images over the Aethem link -/

/-- R525, R532 to R534: a header from upstream that passes begins a transfer and is relayed; one that
fails is refused upstream. R533, R535: data in order is appended, a gap or a bad frame asks once for the
bytes missing, and the end asks for what is still missing. RESEND is answered with the staging area from
its offset onward. R540: a REFUSE is passed upstream, or latched where the image entered. -/
def Obligations.ImagesTravelTheChain : Prop :=
  (∀ (s : State) (f : ChainFrame) (v : HdrVerdict) (r : Nat), s.alive → s.dev.Takes 1 f →
     s.dev.flag Base.glb F.GLB_UPD_CTRL_ACCEPT_CHAIN = true → r = s.dev.hdrReason f.payload v →
     (r = 0 → Completes (.imgHdr f v) s fun d =>
       (∃ t, d.boot.xfer = some t ∧ t.id = 0 ∧ t.got = 0 ∧ t.hdr = fwHdrOf f.payload ∧ t.chain = true ∧
         t.hop = f.hop) ∧ d.boot.fw (!s.dev.boot.fwSlotB) = .empty ∧
       d.fld Base.glb F.GLB_UPD_STAT_XFER = 1 ∧ d.fld Base.glb F.GLB_UPD_STAT_FROM_CHAIN = 1 ∧
       d.boot.chainOut = s.dev.boot.chainOut ++ (if s.dev.relays = true then
         s.dev.chainFrames true 1 (f.hop + 1) 0 (xferOf f.payload) f.payload else [])) ∧
     (r ≠ 0 → Completes (.imgHdr f v) s fun d => d.boot.xfer = s.dev.boot.xfer ∧
       d.fld Base.glb F.GLB_UPD_STAT_REASON = r ∧ (d.src 0xB1).event = true ∧
       d.boot.chainOut = s.dev.boot.chainOut ++ s.dev.refusal f.hop r f.xfer)) ∧
  (∀ (s : State) (f : ChainFrame) (ok : Bool) (t : Transfer), s.alive → s.dev.boot.xfer = some t →
     t.chain = true → t.storing = false → s.dev.chainOn = true →
     ((f.crcOk = false ∨ (f.xfer = t.xfer ∧ t.got < f.offset ∧ t.gap = false)) →
       Completes (.imgData f ok) s fun d => d.boot = { s.dev.boot with
           xfer := some { t with gap := true },
           chainOut := s.dev.boot.chainOut ++ s.dev.chainFrames false 5 1 t.got t.xfer [] } ∧
         { d with boot := s.dev.boot } = s.dev) ∧
     (f.crcOk = true → f.xfer = t.xfer → f.offset = t.got → t.got + f.payload.length < t.hdr.len →
       f.payload ≠ [] → Completes (.imgData f ok) s fun d =>
         d.boot.xfer = some { t with
           got := t.got + f.payload.length, data := t.data ++ f.payload, gap := false } ∧
         d.fld Base.glb F.GLB_UPD_BYTES_COUNT = (t.got + f.payload.length) % 2 ^ 32 ∧
         d.boot.chainOut = s.dev.boot.chainOut ++ (if s.dev.relays = true then
           s.dev.chainFrames true 2 (f.hop + 1) f.offset f.xfer f.payload else [])) ∧
     (f.crcOk = true → f.xfer = t.xfer → f.offset < t.got → Completes (.imgData f ok) s fun d => d = s.dev) ∧
     (s.dev.Takes 3 f → f.xfer = t.xfer → Completes (.imgEnd f) s fun d =>
       d.boot.xfer = some { t with gap := true } ∧
       d.boot.chainOut = s.dev.boot.chainOut ++ (if s.dev.relays = true then
         s.dev.chainFrames true 3 (f.hop + 1) f.offset f.xfer f.payload else []) ++
           s.dev.chainFrames false 5 1 t.got t.xfer [] ∧ { d with boot := s.dev.boot } = s.dev)) ∧
  (∀ (s : State) (f : ChainFrame) (t : Transfer), s.alive → s.dev.boot.xfer = some t → f.crcOk = true →
     f.xfer = t.xfer → s.dev.relays = true → s.dev.io.dnHere = true → s.dev.chainOn = true →
     Completes (.resend f) s fun d => ∃ l, d.boot = { s.dev.boot with chainOut := s.dev.boot.chainOut ++ l } ∧
       (l.map (·.frame.payload)).flatten = t.data.drop f.offset ∧
       (∀ o ∈ l, o.type = 2 ∧ o.down = true ∧ o.frame.payload.length ≤ 1024 ∧ o.frame.hop = t.hop + 1) ∧
       { d with boot := s.dev.boot } = s.dev) ∧
  (∀ (s : State) (f : ChainFrame), s.alive → s.dev.Takes 4 f →
     (s.dev.boot.entered f.xfer = false → Completes (.refuse f) s fun d =>
       d.boot.chainOut = s.dev.boot.chainOut ++
         s.dev.chainFrames false 4 (f.hop + 1) f.offset f.xfer f.payload ∧
       { d with boot := s.dev.boot } = s.dev) ∧
     (s.dev.boot.entered f.xfer = true → Completes (.refuse f) s fun d =>
       d.flag Base.glb F.GLB_UPD_REFUSE_VALID = true ∧ (d.src 0xB1).event = true ∧
       d.boot.chainOut = s.dev.boot.chainOut ∧
       s.dev.Reported d 0x0B02 Unit.steward 2 (fieldBe f.payload 1 1) (fieldBe f.payload 0 1) ∧
       (s.dev.flag Base.glb F.GLB_UPD_REFUSE_VALID = false →
         d.fld Base.glb F.GLB_UPD_REFUSE_HOP = fieldBe f.payload 0 1 % 64 ∧
         d.fld Base.glb F.GLB_UPD_REFUSE_REASON = fieldBe f.payload 1 1 % 256) ∧
       (s.dev.flag Base.glb F.GLB_UPD_REFUSE_VALID = true →
         d.fld Base.glb F.GLB_UPD_REFUSE_HOP = s.dev.fld Base.glb F.GLB_UPD_REFUSE_HOP)))

/-- R536: the beacon from upstream gives a drive its position and goes on downstream; an entry from
downstream is kept at its position and goes on upstream; the head sends the beacon and every other drive
its own entry; an entry that has not come for 5 s is stale. -/
def Obligations.TheInventoryIsKept : Prop :=
  ∀ (s : State) (f : ChainFrame), s.alive →
    (f.crcOk = true → s.dev.chainOn = true →
      Completes (.inventory f true) s (fun d => d.fld Base.glb F.GLB_CHAIN_POS_POS = f.hop % 64 ∧
        d.flag Base.glb F.GLB_CHAIN_POS_VALID = true ∧
        d.boot = { s.dev.boot with
          chainOut := s.dev.boot.chainOut ++
            s.dev.chainFrames true 7 (f.hop + 1) f.offset f.xfer f.payload } ∧
        s.dev.OnlyRegs { d with boot := s.dev.boot }
          [(Base.glb, F.GLB_CHAIN_POS_POS), (Base.glb, F.GLB_CHAIN_POS_VALID)]) ∧
      Completes (.inventory f false) s (fun d =>
        look (s.dev.chainPos + f.hop) d.boot.inv = some { bytes := f.payload, stale := false } ∧
        (∀ k, k ≠ s.dev.chainPos + f.hop → look k d.boot.inv = look k s.dev.boot.inv) ∧
        d.boot.chainOut = s.dev.boot.chainOut ++
          s.dev.chainFrames false 7 (f.hop + 1) f.offset f.xfer f.payload ∧
        { d with boot := s.dev.boot } = s.dev)) ∧
    ((f.crcOk = false ∨ s.dev.chainOn = false) → ∀ down,
      Completes (.inventory f down) s fun d => d = s.dev) ∧
    Completes .inventoryBeaconTimer s (fun d =>
      d = { s.dev with boot := { s.dev.boot with
        chainOut := s.dev.boot.chainOut ++
          (if s.dev.io.upHere = true then s.dev.chainFrames false 7 1 0 0 s.dev.ownEntry
           else s.dev.chainFrames true 7 1 0 0 []) } }) ∧
    (∀ pos e, look pos s.dev.boot.inv = some e → Completes (.inventoryStale pos) s fun d =>
      look pos d.boot.inv = some { e with stale := true } ∧
      (∀ k, k ≠ pos → look k d.boot.inv = look k s.dev.boot.inv) ∧ d.boot.chainOut = s.dev.boot.chainOut ∧
      { d with boot := s.dev.boot } = s.dev)

/-- R536: the three commands of the inventory complete on every frame, position and running drive, and act
together: after a good beacon a drive with a neighbour upstream has the beacon's HOP as its position; an entry that
then comes from downstream is kept at the sum of that position and its own HOP, fresh; the drive's own entry goes
upstream when its timer comes; and an entry that stays away for 5 s is stale, and no other is. -/
def Obligations.InventoryCommandsComplete : Prop :=
  (∀ (s : State) (f : ChainFrame) (down : Bool) (pos : Nat), s.alive →
    (∃ t, exec (.inventory f down) s = .next t ∧ t.pending = s.pending ∧ t.dev.boot.xfer = s.dev.boot.xfer ∧
      { t.dev with regs := s.dev.regs, boot := s.dev.boot } = s.dev) ∧
    (∃ t, exec .inventoryBeaconTimer s = .next t ∧ t.pending = s.pending ∧ t.dev.boot.inv = s.dev.boot.inv ∧
      s.dev.boot.chainOut.length ≤ t.dev.boot.chainOut.length ∧ { t.dev with boot := s.dev.boot } = s.dev) ∧
    (∃ t, exec (.inventoryStale pos) s = .next t ∧ t.pending = s.pending ∧
      look pos t.dev.boot.inv = (look pos s.dev.boot.inv).map (fun e => { e with stale := true }) ∧
      (∀ k, k ≠ pos → look k t.dev.boot.inv = look k s.dev.boot.inv) ∧
      { t.dev with boot := s.dev.boot } = s.dev)) ∧
  (∀ (s : State) (f g : ChainFrame), s.alive → s.dev.chainOn = true → s.dev.io.upHere = true →
    f.crcOk = true → g.crcOk = true →
    ∃ t u v w, exec (.inventory f true) s = .next t ∧ exec (.inventory g false) t = .next u ∧
      exec .inventoryBeaconTimer u = .next v ∧ exec (.inventoryStale (f.hop % 64 + g.hop)) v = .next w ∧
      t.dev.chainPos = f.hop % 64 ∧
      look (f.hop % 64 + g.hop) u.dev.boot.inv = some { bytes := g.payload, stale := false } ∧
      v.dev.boot.chainOut = u.dev.boot.chainOut ++ s.dev.chainFrames false 7 1 0 0 s.dev.ownEntry ∧
      look (f.hop % 64 + g.hop) w.dev.boot.inv = some { bytes := g.payload, stale := true })
/-! ### Identity, ownership and status -/

/-- R560, Table 4-19: ATTEST answers with the challenge, the drive's versions, digests, owner and time,
and its signature. R561, R172: a drive takes an owner once, on a good proof. Table 4-15: STATUS answers
96 bytes. R565, Table 4-14: PROGRESS answers with a job's record, with zeros for a job never begun, and
with MALFORMED where no such job is defined. All four leave everything else as it is. -/
def Obligations.IdentityStatusAndProgressAreAnswered : Prop :=
  ∀ (s : State) (cid : Nat) (q : Cmd) (c : Ctx), s.alive →
    (s.dev.Asks cid Op.attest q c → ∀ sig, Completes (.attest cid sig) s fun d =>
      s.dev.Answered d cid St.ok (s.dev.attestBody (slice q.payload 0 32) ++ padTo 96 (sig.take 96)) ∧
      s.dev.OnlyAnswer d q.sid) ∧
    (s.dev.Asks cid Op.takeOwnership q c → ∀ ok,
      (ok = true → s.dev.boot.owner = none → Completes (.takeOwnership cid ok) s fun d =>
        s.dev.Answered d cid St.ok [] ∧ d.boot.owner = some (slice q.payload 0 97) ∧
        d.boot.enrolSeries = s.dev.boot.set_.series ∧ s.dev.OnlyAnswer { d with boot := s.dev.boot } q.sid) ∧
      ((ok = false ∨ s.dev.boot.owner.isSome = true) → Completes (.takeOwnership cid ok) s fun d =>
        s.dev.Answered d cid St.permission [] ∧ s.dev.OnlyAnswer d q.sid)) ∧
    (s.dev.Asks cid Op.status q c → Completes (.status cid) s fun d =>
      s.dev.Answered d cid St.ok s.dev.statusBlock ∧ s.dev.statusBlock.length = 96 ∧
      s.dev.OnlyAnswer d q.sid) ∧
    (s.dev.Asks cid Op.progress q c → ∀ job target, job = fieldBe q.payload 0 1 →
      target = fieldBe q.payload 1 1 →
      ((job = 0 ∨ 5 < job ∨ fieldBe q.payload 2 2 ≠ 0) → Completes (.progress cid) s fun d =>
        s.dev.Answered d cid St.malformed [] ∧ s.dev.OnlyAnswer d q.sid) ∧
      (1 ≤ job → job ≤ 5 → fieldBe q.payload 2 2 = 0 →
        (s.dev.jobFor job target = none → Completes (.progress cid) s fun d =>
          s.dev.Answered d cid St.ok (zeros 16) ∧ s.dev.OnlyAnswer d q.sid) ∧
        (∀ j, s.dev.jobFor job target = some j → Completes (.progress cid) s fun d => ∃ left,
          s.dev.Answered d cid St.ok (be 1 j.st ++ be 1 j.result ++ be 2 j.permille ++ be 4 j.elapsed ++
            be 4 left ++ zeros 4) ∧ (j.st ≠ 1 → j.st ≠ 4 → left = 0) ∧ s.dev.OnlyAnswer d q.sid)))

/-! ### Administration (chapter "Administration and test") -/

/-- R169, R579 to R583: SWATH_TEST on a swath that may be tested starts the job and shows it active; one
that may not is BUSY, SWATH_OFFLINE or MALFORMED. A swath test of the journal memory ends with its counts,
its first fault latched and its job's event; the others reset the swath.
R169, R271, R567: EVACUATE starts its job and shows it active, unless another job stands in its way. -/
def Obligations.TestsAndEvacuationsBegin : Prop :=
  (∀ (s : State) (cid : Nat) (q : Cmd) (c : Ctx) (n : Fin 16) (test passes : Nat), s.alive →
     s.dev.Asks cid Op.swathTest q c → n.val = fieldBe q.payload 0 1 → test = fieldBe q.payload 1 1 →
     passes = fieldBe q.payload 4 4 → 1 ≤ test → test ≤ 3 → 1 ≤ passes → passes ≤ 65535 →
     fieldBe q.payload 2 2 = 0 →
     (((test ≤ 2 ∧ s.dev.ownsSlots n = true) ∨ s.dev.sanitizing = true ∨ s.dev.jobOn 4 n.val = true ∨
         s.dev.resetting (.swath n) = true) →
       Completes (.swathTest cid) s fun d => s.dev.Answered d cid St.busy [] ∧ s.dev.OnlyAnswer d q.sid) ∧
     ((test = 3 ∨ s.dev.ownsSlots n = false) → s.dev.sanitizing = false → s.dev.jobOn 4 n.val = false →
       s.dev.resetting (.swath n) = false →
       (((test ≤ 2 ∧ ((s.dev.sw n).failed = true ∨ s.dev.swFrozen n = true)) ∨
           (test = 3 ∧ s.dev.online n = false)) → Completes (.swathTest cid) s fun d =>
         s.dev.Answered d cid St.swathOffline [] ∧ s.dev.OnlyAnswer d q.sid) ∧
       ((test ≤ 2 → (s.dev.sw n).failed = false ∧ s.dev.swFrozen n = false) →
         (test = 3 → s.dev.online n = true) →
         Completes (.swathTest cid) s fun d => s.dev.Answered d cid St.ok [] ∧
           d.job 4 n.val = some (freshJob passes test) ∧
           d.fld (Base.sw n) F.SW_TST_STAT_TEST = test ∧ d.fld (Base.sw n) F.SW_TST_STAT_PASS = 0 ∧
           d.fld (Base.sw n) F.SW_TST_STAT_FAULTS = 0 ∧ d.fld (Base.sw n) F.SW_TST_STAT_ACTIVE = 1 ∧
           s.dev.SameKeys d))) ∧
  (∀ (s : State) (n : Fin 16) (faults : Nat) (addr : BitVec 32) (dev kind : BitVec 4) (j : Job), s.alive →
     s.dev.job 4 n.val = some j → j.st = 1 → s.dev.flag (Base.sw n) F.SW_TST_STAT_ACTIVE = true →
     (j.act = 3 → Completes (.swathTestEnd n faults addr dev kind) s fun d =>
       d.job 4 n.val = some { j with
         st := if faults = 0 then 2 else 3, result := if faults = 0 then St.ok else St.mediaLost,
         permille := if faults = 0 then 1000 else j.permille } ∧
       d.fld (Base.sw n) F.SW_TST_STAT_ACTIVE = 0 ∧ d.fld (Base.sw n) F.SW_TST_STAT_PASS = j.arg % 65536 ∧
       d.fld (Base.sw n) F.SW_TST_STAT_FAULTS = min 8191 faults ∧ (d.src 0xB5).event = true ∧
       (faults ≠ 0 → s.dev.flag (Base.sw n) F.SW_TST_FAULT_INFO_VALID = false →
         d.fld (Base.sw n) F.SW_TST_FAULT_ADDR = addr.toNat ∧
         d.fld (Base.sw n) F.SW_TST_FAULT_INFO_DEV = dev.toNat ∧
         d.fld (Base.sw n) F.SW_TST_FAULT_INFO_KIND = kind.toNat ∧
         d.flag (Base.sw n) F.SW_TST_FAULT_INFO_VALID = true) ∧ d.sws = s.dev.sws) ∧
     (j.act ≠ 3 → Completes (.swathTestEnd n faults addr dev kind) s fun d =>
       d.resetting (.swath n) = true)) ∧
  (∀ (s : State) (cid : Nat) (q : Cmd) (c : Ctx) (sw : Nat), s.alive → s.dev.Asks cid Op.evacuate q c →
     sw = fieldBe q.payload 0 1 → sw < 16 → 1 ≤ fieldBe q.payload 1 1 → fieldBe q.payload 1 1 ≤ 2 →
     ((s.dev.sanitizing = true ∨ s.dev.formatting = true ∨ s.dev.jobRuns 3 = true) →
       Completes (.evacuate cid) s fun d => s.dev.Answered d cid St.busy [] ∧ s.dev.OnlyAnswer d q.sid) ∧
     (s.dev.sanitizing = false → s.dev.formatting = false → s.dev.jobRuns 3 = false →
       Completes (.evacuate cid) s fun d => s.dev.Answered d cid St.ok [] ∧
         d.job 3 sw = some (freshJob (fieldBe q.payload 2 2) (fieldBe q.payload 1 1)) ∧
         d.adm.copies = 0 ∧ d.adm.moved = 0 ∧ d.fld Base.dsp F.DSP_EVQ_STAT_SWATH = sw ∧
         d.flag Base.dsp F.DSP_EVQ_STAT_ACTIVE = true ∧ s.dev.SameKeys d))

/-- R170, R171, R337, R570 to R575: SANITIZE waits for the commands admitted before it, then new keys and
a new hash secret are drawn and every swath that takes part is emptied; its end re-forms their
superblocks. R573: meanwhile each die erases its rows one by one, four blocks each, and a failed erase leaves the job
running; which row is next after those in service is the model's choice (log entry 65). R336, R576 to R578: FORMAT draws new keys for the key spaces in scope, and its end removes
their keys. Both refuse what Table 4-16 refuses. R569: an evacuation ends by its own step. -/
def Obligations.ErasesBeginAndEnd : Prop :=
  (∀ (s : State) (cid : Nat) (q : Cmd) (c : Ctx) (draw : EraseDraw) (o : Option Nat), s.alive →
     s.dev.Asks cid Op.sanitize q c →
     o = s.dev.eraseCheck c (fieldBe q.payload 0 4 == 0x53414E49) (fieldBe q.payload 4 4)
       (s.dev.sanitizing || s.dev.formatting || s.dev.jobRuns 3 || s.dev.jobRuns 4) (fun _ => true) →
     (∀ st, o = some st → Completes (.sanitize cid draw) s fun d =>
       s.dev.Answered d cid st [] ∧ s.dev.OnlyAnswer d q.sid) ∧
     (o = none → s.dev.eraseWaits (fun _ => true) = true → Completes (.sanitize cid draw) s fun d =>
       d.cmd cid = some { q with st := .running } ∧ { d with disp := s.dev.disp } = s.dev) ∧
     (o = none → s.dev.eraseWaits (fun _ => true) = false → Completes (.sanitize cid draw) s fun d =>
       s.dev.Sanitized d draw)) ∧
  (∀ (s : State) (cid : Nat) (q : Cmd) (draw : EraseDraw), s.alive → s.dev.cmd cid = some q →
     q.op = Op.sanitize → q.st = .running →
     (s.dev.eraseWaits (fun _ => true) = false → Completes (.sanitize cid draw) s fun d =>
       s.dev.Sanitized d draw) ∧
     (s.dev.eraseWaits (fun _ => true) = true → Completes (.sanitize cid draw) s fun d => d = s.dev)) ∧
  (∀ (s : State) (cid : Nat) (q : Cmd) (c : Ctx) (draw : EraseDraw) (all : Bool), s.alive →
     s.dev.Asks cid Op.format q c → all = (fieldBe q.payload 0 1 == 1) →
     s.dev.eraseCheck c (fieldBe q.payload 4 4 == 0x464F524D && decide (fieldBe q.payload 0 1 ≤ 1) &&
         fieldBe q.payload 2 2 == 0 && (all || (look q.space s.dev.boot.set_.spaces).isSome))
       (fieldBe q.payload 1 1)
       (s.dev.sanitizing || s.dev.jobRuns 3 || s.dev.formatShares all q.space)
       (fun x => all || x == q.space) = none →
     s.dev.eraseWaits (fun x => all || x == q.space) = false →
     Completes (.format cid draw) s fun d => s.dev.Answered d cid St.ok [] ∧
       (∀ sp k, look sp s.dev.boot.keys = some k → look sp d.boot.keys =
         some (if all = true ∨ sp = q.space then
           k.rewritten s.dev.boot.saltA (drawKey draw.keys sp) (k.gen + 1) else k)) ∧
       d.disp.fc = [] ∧ (if all = true then d.job 7 0 = some (freshJob 1 0)
         else d.job 2 q.space = some (freshJob 0 0))) ∧
  (∀ (s : State) (n : Fin 16) (i : Nat) (die : Fin 32) (t : Tbl Nat) (j : Job), s.alive →
     s.dev.swRuns n = true → s.dev.job 1 0 = some j → j.st = 1 → (s.dev.sw n).wipe = some t →
     (s.dev.sw n).nextRow die = some i → (look die.val t).isSome = true → s.dev.DieBusy n die .erase →
     (∀ ask, Completes (.eraseComplete n i ⟨die, ask⟩) s fun d =>
       (d.sw n).wipe = some (put die.val (lookD die.val 0 t + 1) t) ∧
       d.fld (Base.sw n) F.SW_MED_ERASE_COUNT = (s.dev.fld (Base.sw n) F.SW_MED_ERASE_COUNT + 4) % 2 ^ 32 ∧
       (∃ k, d.job 1 0 = some { j with permille := k }) ∧ (d.sw n).badBlks = (s.dev.sw n).badBlks ∧
       (d.sw n).sbs = (s.dev.sw n).sbs ∧ s.dev.OnlySwath d n ∧ d.ses = s.dev.ses ∧ d.disp = s.dev.disp) ∧
     (∀ plane : Fin 4, Completes (.eraseFail n i die plane) s fun d =>
       (d.sw n).wipe = some (put die.val (lookD die.val 0 t + 1) t) ∧
       d.fld (Base.sw n) F.SW_MED_ERASE_FAIL_COUNT =
         (s.dev.fld (Base.sw n) F.SW_MED_ERASE_FAIL_COUNT + 1) % 2 ^ 32 ∧
       (∃ k, d.job 1 0 = some { j with permille := k }) ∧
       (∀ p b, p = die.val * 4 + plane.val → b = (s.dev.sw n).wipeBlock i p →
         (d.sw n).badBlks = if (p, b) ∈ (s.dev.sw n).badBlks then (s.dev.sw n).badBlks
           else (s.dev.sw n).badBlks ++ [(p, b)]) ∧
       s.dev.OnlySwath d n ∧ d.ses = s.dev.ses ∧ d.disp = s.dev.disp)) ∧
  (∀ (s : State) (target : Nat), s.alive →
     (∀ j, s.dev.job 1 0 = some j → j.st = 1 → Completes (.adminJobEnd 1 target) s fun d =>
       (∃ k, d.job 1 0 = some k ∧
         (if allSwaths.any s.dev.skipsSanitize = true then k.st = 3 ∧ k.result = St.swathOffline
          else k.st = 2 ∧ k.result = St.ok ∧ k.permille = 1000)) ∧
       (∀ n, s.dev.skipsSanitize n = false → (d.sw n).keys = [] ∧ (d.sw n).map = [] ∧ (d.sw n).ring = []) ∧
       (d.src 0xB5).event = true) ∧
     (∀ j, s.dev.job 2 target = some j → j.st = 1 → s.dev.job 7 0 = none →
       Completes (.adminJobEnd 2 target) s fun d =>
         d.job 2 target = some { j with st := 2, result := St.ok, permille := 1000 } ∧
         (∀ n, ∀ k ∈ (d.sw n).keys, k.space ≠ target) ∧
         (∀ n, ∀ k ∈ (s.dev.sw n).keys, k.space ≠ target → k ∈ (d.sw n).keys) ∧
         (∀ n, ∀ t ∈ (d.sw n).tombs, t.space ≠ target) ∧ (d.src 0xB5).event = true) ∧
     exec (.adminJobEnd 3 target) s = exec .evacuationEnd s)

/-! ### Registers (chapter "Register map") -/

/-- R167, R597, R598: REG_READ answers the word an assigned register reads as and RANGE_INVALID for an
unassigned address. REG_WRITE and one plain access change, under the mask, the fields a register lets
them change; an access outside a register or its range, or to a frozen function, is refused and a
misaligned one malformed, and nothing changes. -/
def Obligations.RegistersAreReadAndWritten : Prop :=
  (∀ (s : State) (cid : Nat) (q : Cmd) (c : Ctx) (a : Nat), s.alive → s.dev.Asks cid Op.regRead q c →
     a = fieldBe q.payload 0 4 → fieldBe q.payload 4 2 = 1 → q.regAt = 0 → q.regVals = [] →
     ((spanOf a).isNone = true → Completes (.regRead cid) s fun d =>
       s.dev.Answered d cid St.rangeInvalid (be 4 a ++ be 2 0 ++ zeros 2) ∧ s.dev.OnlyAnswer d q.sid) ∧
     ((spanOf a).isSome = true → s.dev.regWaits a = false → Completes (.regRead cid) s fun d =>
       s.dev.Answered d cid St.ok (be 4 a ++ be 2 1 ++ zeros 2 ++
         be 4 (s.dev.readWord .session a).toNat) ∧
       ((isPoolFree a = false → isStepWindow a = false → pairsOf a = [] → s.dev.OnlyAnswer d q.sid)))) ∧
  (∀ (s : State) (cid : Nat) (q : Cmd) (c : Ctx) (a : Nat) (mask value : Word), s.alive →
     s.dev.Asks cid Op.regWrite q c → fieldBe q.payload 0 2 = 1 → q.regAt = 0 →
     a = fieldBe q.payload 4 4 → mask = BitVec.ofNat 32 (fieldBe q.payload 8 4) →
     value = BitVec.ofNat 32 (fieldBe q.payload 12 4) →
     (a % 4 ≠ 0 → Completes (.regWrite cid) s fun d =>
       s.dev.Answered d cid St.malformed [] ∧ s.dev.OnlyAnswer d q.sid) ∧
     (a % 4 = 0 → s.dev.regWaits a = false → s.dev.writeEntry .session a mask value = none →
       Completes (.regWrite cid) s fun d => s.dev.Answered d cid St.rangeInvalid (be 2 0 ++ zeros 2) ∧
         s.dev.OnlyAnswer d q.sid) ∧
     (∀ r, plainReg a = true → s.dev.TakesWrite .session a mask value r → Completes (.regWrite cid) s fun d =>
       s.dev.Answered d cid St.ok (be 2 1 ++ zeros 2) ∧ d.reg a = r.write (s.dev.reg a) mask value ∧
       (∀ b, b ≠ a → d.reg b = s.dev.reg b) ∧ s.dev.OnlyAnswer { d with regs := s.dev.regs } q.sid)) ∧
  (∀ (s : State) (path : ReqPath) (addr : BitVec 24) (a : Nat) (mask value : Word), s.alive →
     a = addr.toNat →
     ((a % 4 ≠ 0 ∨ s.dev.regWaits a = true ∨ s.dev.writeEntry path a mask value = none) →
       Completes (.regWritePlain path addr mask value) s fun d => d = s.dev) ∧
     (∀ r, plainReg a = true → s.dev.TakesWrite path a mask value r →
       Completes (.regWritePlain path addr mask value) s fun d =>
         d = s.dev.setReg a (r.write (s.dev.reg a) mask value)))

/-- R601: a read of the lower register of a pair latches the upper ones for its path alone. R600: a read
of POOL_FREE clears its low mark to what is free; a claim register read by its own master claims. R602: a
write of a window's select register latches the entry it names for its path alone. -/
def Obligations.ReadsLatchClaimAndSelect : Prop :=
  ∀ (s : State) (path : ReqPath) (addr : BitVec 24) (a : Nat), s.alive → a = addr.toNat →
    s.dev.regWaits a = false →
    Completes (.loLatchRead path addr) s (fun d =>
      (∀ b ∈ pairsOf a, d.pathReg path b = s.dev.liveWord path b) ∧
      (∀ p b, (p ≠ path ∨ b ∉ pairsOf a) → b < 2 ^ 24 → d.pathReg p b = s.dev.pathReg p b) ∧
      { d with prs := s.dev.prs } = s.dev) ∧
    (isPoolFree a = true → Completes (.rcClearRead path addr) s fun d =>
      d.fld (Base.prt (portOf a)) F.PRT_POOL_FREE_LOW = s.dev.poolFree % 65536 ∧
      s.dev.OnlyRegs d [(Base.prt (portOf a), F.PRT_POOL_FREE_LOW)]) ∧
    (isRc a = false → Completes (.rcClearRead path addr) s fun d => d = s.dev) ∧
    (path ≠ .session → a = (if path = .steward then 0x20014 else 0x20024) →
      exec (.rcClearRead path addr) s = exec (.irqClaim (if path = .steward then 0 else 17) .own false) s) ∧
    (∀ first count r value sel ws, windowAt a = some (first, count) →
      s.dev.TakesWrite path a 0xFFFFFFFF value r →
      sel = r.write (s.dev.pathReg path a) 0xFFFFFFFF value → ws = s.dev.windowEntry a sel →
      Completes (.windowSelectWrite path addr value) s fun d =>
        d.pathReg path a = sel ∧ (∀ k, k < count → d.pathReg path (first + 4 * k) = ws.getD k 0) ∧
        (∀ p b, b < 2 ^ 24 → (p ≠ path ∨ (b ≠ a ∧ ∀ k, k < count → b ≠ first + 4 * k)) →
          d.pathReg p b = s.dev.pathReg p b) ∧
        { d with prs := s.dev.prs } = s.dev)
/-! ### Short rules stated whole -/

/-- R597: a reserved address within a block's span reads 0 on every path; a write to it is ignored, alone
or in a REG_WRITE, where it counts as applied. -/
def Obligations.ReservedAddressesReadZeroAndIgnoreWrites : Prop :=
  ∀ (s : State) (a : Nat), s.alive → (spanOf a).isSome = true → regDesc a = none →
    (∀ path, s.dev.readWord path a = 0) ∧
    (∀ path (addr : BitVec 24) mask value, addr.toNat = a →
      Completes (.regWritePlain path addr mask value) s fun d => d = s.dev) ∧
    (∀ cid q c, s.dev.Asks cid Op.regWrite q c → fieldBe q.payload 0 2 = 1 → q.regAt = 0 →
      a = fieldBe q.payload 4 4 → a % 4 = 0 → s.dev.regWaits a = false → s.dev.regFrozen a = false →
      Completes (.regWrite cid) s fun d => s.dev.Answered d cid St.ok (be 2 1 ++ zeros 2) ∧
        s.dev.OnlyAnswer d q.sid)

/-- R49: with PRT_x_PWD.TIME at 0 neither watchdog acts, however long a pause has lasted. -/
def Obligations.WatchdogTimeZeroTurnsBothWatchdogsOff : Prop :=
  ∀ (s : State) (p : PortId), s.alive → s.dev.fld (Base.prt p) F.PRT_PWD_TIME = 0 →
    (∀ cls ms, Completes (.pauseWatchdogFire p cls ms) s fun d => d = s.dev) ∧
    (∀ ms, Completes (.ownPauseWatchdog p ms) s fun d => d = s.dev)

/-- R56: while PENDING is 1, a write to GCL_DATA, to GCL_CYCLE or to ADMIN_LEN, by whichever command and
on whichever path, leaves all three as they are and sets GCL_ERR. -/
def Obligations.GateListWritesWhilePendingSetGclErr : Prop :=
  ∀ (s : State) (p : PortId) (path : ReqPath), s.alive →
    s.dev.flag (Base.prt p) F.PRT_GCL_CTRL_PENDING = true →
    (∀ w, Completes (.gclDataAccess p path (some w)) s fun d => s.dev.GclKept d p) ∧
    (∀ a mask value, (a = Base.prt p + 0x94 ∨ a = Base.prt p + 0x84 ∨
        (a = Base.prt p + 0x80 ∧ fieldMask 4 9 &&& mask ≠ 0)) →
      (∀ d, s.dev.writeEntry path a mask value = some d → s.dev.GclKept d p) ∧
      (∀ addr : BitVec 24, ∀ r, addr.toNat = a → s.dev.TakesWrite path a mask value r →
        Completes (.regWritePlain path addr mask value) s fun d => s.dev.GclKept d p))

/-! ### The machine -/

/-- Log entry 1 (the model's choice, not a rule): a step takes the command at the front of the queue and
is exec of that command with the queue's rest; with no command waiting one tick passes. Every command
answers a next state and leaves the queue as it is. -/
def Obligations.AStepRunsTheFrontCommand : Prop :=
  (∀ (s : State) (c : Instr) (rest : List Instr), s.pending = c :: rest →
    step s = exec c { s with pending := rest }) ∧
  (∀ s : State, s.pending = [] → ∃ d, step s = .next { s with dev := d } ∧ d.now = s.dev.now + 1) ∧
  (∀ (c : Instr) (s : State), ∃ d, exec c s = .next { s with dev := d })

/-- R210, R439, R515 and log entry 2 (the model's reading): a drive that does not run, with no start and no
change of a pin that acts on it in its queue, stays so at every step, and every step leaves everything but
its clocks as it was: its registers, its swaths, its sessions, its keys and settings. -/
def Obligations.AStoppedDriveStaysStoppedAtEveryStep : Prop :=
  ∀ s t : State, s.stopped → step s = .next t → t.stopped ∧ s.dev.sameButClocks t.dev

/-- R53, R595, R515: after a reset nothing waits, the drive does not run and no start is in its queue,
every register holds its reset value, no session, command or key is there, every gate bank runs one open
entry, and the admin banks hold 0. -/
def Obligations.ResetLeavesNothingWaiting : Prop :=
  State.reset.stopped ∧ State.reset.pending = [] ∧ (∀ a, State.reset.dev.reg a = resetWord a) ∧
  State.reset.dev.ses.ctx = [] ∧ State.reset.dev.disp.cmds = [] ∧
  (∀ n, (State.reset.dev.sw n).keys = [] ∧ (State.reset.dev.sw n).ready = false) ∧
  (∀ p, look 0 (State.reset.dev.port p).gclOper = some 0xFF ∧
    look 1 (State.reset.dev.port p).gclOper = some 1000000000 ∧ (State.reset.dev.port p).gclAdmin = [])
end

