-- ==== Sys2Proof/Laws/Tables.lean ====
section
/-!
SUPPORT. Sparse tables, register words and their fields: reading after writing.
-/
namespace Sys2Proof.Machine

variable {α : Type}

/-! ### Tables -/

theorem look_put (k j : Nat) (x : α) (t : Tbl α) :
    look j (put k x t) = if k = j then some x else look j t := by
  induction t with
  | nil => simp [put, look]
  | cons e t ih =>
    obtain ⟨i, y⟩ := e
    simp only [put]
    split
    · subst i; by_cases h : k = j <;> simp [look, h]
    · split
      · by_cases h : k = j <;> simp [look, h]
      · rename_i hne _
        by_cases h : i = j
        · have : ¬ k = j := by omega
          simp [look, h, this]
        · simp [look, h, ih]

theorem look_del (k j : Nat) (t : Tbl α) :
    look j (del k t) = if k = j then none else look j t := by
  induction t with
  | nil => simp [del, look]
  | cons e t ih =>
    obtain ⟨i, y⟩ := e
    simp only [del]
    split
    · subst i; rw [ih]; by_cases h : k = j <;> simp [look, h]
    · by_cases h : i = j
      · have : ¬ k = j := by omega
        simp [look, h, this]
      · simp [look, h, ih]

theorem look_adjust (k j : Nat) (f : α → α) (t : Tbl α) :
    look j (adjust k f t) = if k = j then (look j t).map f else look j t := by
  unfold adjust
  by_cases h : k = j
  · subst h; cases hk : look k t <;> simp [hk, look_put]
  · cases hk : look k t <;> simp [look_put, h]

theorem lookD_putD [DecidableEq α] (k j : Nat) (d x : α) (t : Tbl α) :
    lookD j d (putD k d x t) = if k = j then x else lookD j d t := by
  unfold putD lookD
  by_cases hx : x = d <;> simp only [hx, if_true, if_false, look_del, look_put] <;>
    by_cases h : k = j <;> simp [h]

/-! ### The canonical form -/

theorem keysAbove_mono (b c : Nat) (t : Tbl α) (h : keysAbove c t = true) (hb : b ≤ c) :
    keysAbove b t = true := by
  cases t with
  | nil => rfl
  | cons e t => simp [keysAbove] at h ⊢; exact ⟨by omega, h.2⟩

theorem keysAbove_put (b k : Nat) (x : α) (t : Tbl α) (hk : b < k) (h : keysAbove b t = true) :
    keysAbove b (put k x t) = true := by
  induction t generalizing b with
  | nil => simp [put, keysAbove, hk]
  | cons e t ih =>
    obtain ⟨i, y⟩ := e
    simp [keysAbove] at h
    simp only [put]
    split
    · subst i; simp [keysAbove, hk, h.2]
    · split
      · rename_i h2; simp [keysAbove, hk, h2, h.2]
      · simp [keysAbove, h.1, ih i (by omega) h.2]

theorem sorted_put (k : Nat) (x : α) (t : Tbl α) (h : sorted t = true) : sorted (put k x t) = true := by
  cases t with
  | nil => simp [put, sorted, keysAbove]
  | cons e t =>
    obtain ⟨i, y⟩ := e
    simp [sorted] at h
    simp only [put]
    split
    · subst i; simpa [sorted] using h
    · split
      · rename_i h2; simp [sorted, keysAbove, h2, h]
      · simp [sorted, keysAbove_put i k x t (by omega) h]

theorem keysAbove_del (b k : Nat) (t : Tbl α) (h : keysAbove b t = true) :
    keysAbove b (del k t) = true := by
  induction t generalizing b with
  | nil => rfl
  | cons e t ih =>
    obtain ⟨i, y⟩ := e
    simp [keysAbove] at h
    simp only [del]
    split
    · exact ih b (keysAbove_mono b i t h.2 (by omega))
    · simp [keysAbove, h.1, ih i h.2]

theorem sorted_of_keysAbove (b : Nat) (t : Tbl α) (h : keysAbove b t = true) : sorted t = true := by
  cases t with
  | nil => rfl
  | cons e t => simp [keysAbove] at h; exact h.2

theorem sorted_del (k : Nat) (t : Tbl α) (h : sorted t = true) : sorted (del k t) = true := by
  cases t with
  | nil => rfl
  | cons e t =>
    obtain ⟨i, y⟩ := e
    simp [sorted] at h
    simp only [del]
    split
    · exact sorted_of_keysAbove i _ (keysAbove_del i k t h)
    · simp [sorted, keysAbove_del i k t h]

theorem sorted_putD [DecidableEq α] (k : Nat) (d x : α) (t : Tbl α) (h : sorted t = true) :
    sorted (putD k d x t) = true := by
  unfold putD; split
  · exact sorted_del k t h
  · exact sorted_put k x t h

theorem sorted_adjust (k : Nat) (f : α → α) (t : Tbl α) (h : sorted t = true) :
    sorted (adjust k f t) = true := by
  unfold adjust; split
  · exact sorted_put k _ t h
  · exact h

/-! ### Fields of a word -/

theorem testBit_bitsOf (w : Word) (lo n i : Nat) :
    (bitsOf w lo n).testBit i = (decide (i < n) && w.getLsbD (lo + i)) := by
  simp [bitsOf, Nat.testBit_mod_two_pow, Nat.testBit_shiftRight, BitVec.getLsbD]

theorem getLsbD_fieldMask (lo n i : Nat) :
    (fieldMask lo n).getLsbD i = (decide (i < 32) && decide (lo ≤ i) && decide (i - lo < n)) := by
  simp [fieldMask, BitVec.getLsbD_ofNat, Nat.testBit_shiftLeft, Nat.testBit_two_pow_sub_one, Bool.and_assoc]

theorem getLsbD_withBits (w : Word) (lo n v i : Nat) :
    (withBits w lo n v).getLsbD i =
      (decide (i < 32) &&
        if lo ≤ i ∧ i - lo < n then v.testBit (i - lo) else w.getLsbD i) := by
  simp only [withBits, BitVec.getLsbD_or, BitVec.getLsbD_and, BitVec.getLsbD_not, getLsbD_fieldMask,
    BitVec.getLsbD_ofNat, Nat.testBit_shiftLeft, Nat.testBit_mod_two_pow]
  by_cases h1 : i < 32
  · by_cases h2 : lo ≤ i <;> by_cases h3 : i - lo < n <;> simp [h1, h2, h3]
  · have : w.getLsbD i = false := BitVec.getLsbD_of_ge w i (by omega)
    simp [h1, this]

theorem bitsOf_withBits_same (w : Word) (lo n v : Nat) (h : lo + n ≤ 32) :
    bitsOf (withBits w lo n v) lo n = v % 2 ^ n := by
  apply Nat.eq_of_testBit_eq
  intro i
  rw [testBit_bitsOf, getLsbD_withBits, Nat.testBit_mod_two_pow]
  by_cases hi : i < n
  · simp [hi, show lo + i < 32 by omega]
  · simp [hi]

theorem bitsOf_withBits_other (w : Word) (lo n v lo' n' : Nat)
    (h : lo + n ≤ lo' ∨ lo' + n' ≤ lo) :
    bitsOf (withBits w lo n v) lo' n' = bitsOf w lo' n' := by
  apply Nat.eq_of_testBit_eq
  intro i
  rw [testBit_bitsOf, testBit_bitsOf, getLsbD_withBits]
  by_cases hi : i < n'
  · have hn : ¬ (lo ≤ lo' + i ∧ lo' + i - lo < n) := by omega
    simp only [hi, hn, if_false, decide_true, Bool.true_and]
    by_cases h32 : lo' + i < 32
    · simp [h32]
    · simp [h32, BitVec.getLsbD_of_ge w (lo' + i) (by omega)]
  · simp [hi]

/-! ### Registers -/

theorem Dev.reg_setReg (d : Dev) (a b : Nat) (w : Word) :
    (d.setReg a w).reg b = if a = b then w else d.reg b := by
  unfold Dev.reg Dev.setReg
  have := lookD_putD a b (resetWord a) w d.regs
  by_cases h : a = b
  · subst h; simpa [lookD] using this
  · simp only [h, if_false]
    unfold putD
    by_cases hx : w = resetWord a <;> simp [hx, look_del, look_put, h]

@[simp] theorem Dev.reg_setReg_same (d : Dev) (a : Nat) (w : Word) : (d.setReg a w).reg a = w := by
  simp [Dev.reg_setReg]

theorem Dev.reg_setReg_ne (d : Dev) (a b : Nat) (w : Word) (h : a ≠ b) :
    (d.setReg a w).reg b = d.reg b := by simp [Dev.reg_setReg, h]

theorem Dev.reg_setFld_ne (d : Dev) (b v a : Nat) (f : Fld) (h : b + f.off ≠ a) :
    (d.setFld b f v).reg a = d.reg a := by simp [Dev.setFld, Dev.reg_setReg, h]

/-- A count in a register: the register is written, and at most one source counts an assertion. -/
theorem Dev.countTo_cases (d : Dev) (a : Nat) (w : Word) :
    d.countTo a w = d.setReg a w ∨ ∃ k, halfSrc a = some k ∧ d.countTo a w = (d.setReg a w).condRose k := by
  unfold Dev.countTo; simp only
  split
  · split
    · rename_i k hk
      split
      · exact Or.inr ⟨k, hk, rfl⟩
      · exact Or.inl rfl
    · exact Or.inl rfl
  · exact Or.inl rfl

/-- What neither a register write nor a source changes, a count does not change. -/
theorem Dev.countTo_keeps {β : Type} (g : Dev → β) (h1 : ∀ (d : Dev) (a : Nat) (w : Word), g (d.setReg a w) = g d)
    (h2 : ∀ (d : Dev) (k : Nat) (x : IrqSrc), g (d.setSrc k x) = g d) (d : Dev) (a : Nat) (w : Word) :
    g (d.countTo a w) = g d := by
  rcases d.countTo_cases a w with e | ⟨k, _, e⟩ <;> rw [e]
  · exact h1 _ _ _
  · exact (h2 _ _ _).trans (h1 _ _ _)

@[simp] theorem Dev.countTo_reg (d : Dev) (a b : Nat) (w : Word) : (d.countTo a w).reg b = (d.setReg a w).reg b := by
  rcases d.countTo_cases a w with e | ⟨k, _, e⟩ <;> rw [e]; rfl

@[simp] theorem Dev.bump_reg (d : Dev) (b x : Nat) (f : Fld) :
    (d.bump b f).reg x = (d.setReg (b + f.off) (d.reg (b + f.off) + 1)).reg x := d.countTo_reg _ _ _

@[simp] theorem Dev.bumpBy_reg (d : Dev) (b x n : Nat) (f : Fld) :
    (d.bumpBy b f n).reg x = (d.setReg (b + f.off) (d.reg (b + f.off) + BitVec.ofNat 32 n)).reg x :=
  d.countTo_reg _ _ _

theorem Dev.reg_bump_ne (d : Dev) (b a : Nat) (f : Fld) (h : b + f.off ≠ a) :
    (d.bump b f).reg a = d.reg a := by simp [Dev.reg_setReg, h]

theorem Dev.fld_setFld_same (d : Dev) (b v : Nat) (f : Fld) (h : f.lo + f.width ≤ 32) :
    (d.setFld b f v).fld b f = v % 2 ^ f.width := by
  simp [Dev.fld, Dev.setFld, bitsOf_withBits_same _ _ _ _ h]

/-- Two fields of one block lie apart. -/
def Fld.apart (f g : Fld) : Bool :=
  decide (f.off ≠ g.off ∨ f.lo + f.width ≤ g.lo ∨ g.lo + g.width ≤ f.lo)

theorem Dev.fld_setFld_apart (d : Dev) (b v : Nat) (f g : Fld) (h : f.apart g = true) :
    (d.setFld b f v).fld b g = d.fld b g := by
  simp [Fld.apart] at h
  unfold Dev.fld Dev.setFld
  rw [Dev.reg_setReg]
  by_cases ho : f.off = g.off
  · rw [if_pos (by omega), ho]; exact bitsOf_withBits_other _ _ _ _ _ _ (by simpa [ho] using h)
  · rw [if_neg (by omega)]

theorem Dev.fld_setFld_ne (d : Dev) (b c v : Nat) (f g : Fld) (h : b + f.off ≠ c + g.off) :
    (d.setFld b f v).fld c g = d.fld c g := by
  simp [Dev.fld, Dev.reg_setFld_ne _ _ _ _ _ h]

theorem Dev.fld_bump_same (d : Dev) (b : Nat) (f : Fld) (hl : f.lo = 0) (hw : f.width = 32) :
    (d.bump b f).fld b f = (d.fld b f + 1) % 2 ^ 32 := by
  simp [Dev.fld, bitsOf, hl, hw, BitVec.toNat_add]

theorem Dev.fld_bump_ne (d : Dev) (b c : Nat) (f g : Fld) (h : b + f.off ≠ c + g.off) :
    (d.bump b f).fld c g = d.fld c g := by
  simp [Dev.fld, Dev.reg_bump_ne _ _ _ _ h]

end Sys2Proof.Machine
end

