-- ==== Sys2Proof/Laws/State.lean ====
section
/-!
SUPPORT. What each shared update leaves alone: one lemma per field of the drive (and per accessor), so
that no proof unfolds a record update.
-/
namespace Sys2Proof.Machine

variable (d : Dev)


/-! ### setReg -/

@[simp] theorem Dev.setReg_prs (a : Nat) (w : Word) : (d.setReg a w).prs = d.prs := rfl
@[simp] theorem Dev.setReg_now (a : Nat) (w : Word) : (d.setReg a w).now = d.now := rfl
@[simp] theorem Dev.setReg_freeNo (a : Nat) (w : Word) : (d.setReg a w).freeNo = d.freeNo := rfl
@[simp] theorem Dev.setReg_portA (a : Nat) (w : Word) : (d.setReg a w).portA = d.portA := rfl
@[simp] theorem Dev.setReg_portB (a : Nat) (w : Word) : (d.setReg a w).portB = d.portB := rfl
@[simp] theorem Dev.setReg_portC (a : Nat) (w : Word) : (d.setReg a w).portC = d.portC := rfl
@[simp] theorem Dev.setReg_pool (a : Nat) (w : Word) : (d.setReg a w).pool = d.pool := rfl
@[simp] theorem Dev.setReg_pool7 (a : Nat) (w : Word) : (d.setReg a w).pool7 = d.pool7 := rfl
@[simp] theorem Dev.setReg_ses (a : Nat) (w : Word) : (d.setReg a w).ses = d.ses := rfl
@[simp] theorem Dev.setReg_disp (a : Nat) (w : Word) : (d.setReg a w).disp = d.disp := rfl
@[simp] theorem Dev.setReg_pol (a : Nat) (w : Word) : (d.setReg a w).pol = d.pol := rfl
@[simp] theorem Dev.setReg_irq (a : Nat) (w : Word) : (d.setReg a w).irq = d.irq := rfl
@[simp] theorem Dev.setReg_cal (a : Nat) (w : Word) : (d.setReg a w).cal = d.cal := rfl
@[simp] theorem Dev.setReg_evr (a : Nat) (w : Word) : (d.setReg a w).evr = d.evr := rfl
@[simp] theorem Dev.setReg_sws (a : Nat) (w : Word) : (d.setReg a w).sws = d.sws := rfl
@[simp] theorem Dev.setReg_pw (a : Nat) (w : Word) : (d.setReg a w).pw = d.pw := rfl
@[simp] theorem Dev.setReg_io (a : Nat) (w : Word) : (d.setReg a w).io = d.io := rfl
@[simp] theorem Dev.setReg_boot (a : Nat) (w : Word) : (d.setReg a w).boot = d.boot := rfl
@[simp] theorem Dev.setReg_adm (a : Nat) (w : Word) : (d.setReg a w).adm = d.adm := rfl
@[simp] theorem Dev.setReg_port (a : Nat) (w : Word) (x : PortId) : (d.setReg a w).port x = d.port x := by cases x <;> rfl
@[simp] theorem Dev.setReg_ctx (a : Nat) (w : Word) (x : Nat) : (d.setReg a w).ctx x = d.ctx x := rfl
@[simp] theorem Dev.setReg_cmd (a : Nat) (w : Word) (x : Nat) : (d.setReg a w).cmd x = d.cmd x := rfl
@[simp] theorem Dev.setReg_sw (a : Nat) (w : Word) (x : Fin 16) : (d.setReg a w).sw x = d.sw x := rfl
@[simp] theorem Dev.setReg_src (a : Nat) (w : Word) (x : Nat) : (d.setReg a w).src x = d.src x := rfl
@[simp] theorem Dev.setReg_pathReg (a : Nat) (w : Word) (x : ReqPath) (y : Nat) : (d.setReg a w).pathReg x y = d.pathReg x y := rfl

/-! ### setFld -/

@[simp] theorem Dev.setFld_prs (b : Nat) (f : Fld) (v : Nat) : (d.setFld b f v).prs = d.prs := rfl
@[simp] theorem Dev.setFld_now (b : Nat) (f : Fld) (v : Nat) : (d.setFld b f v).now = d.now := rfl
@[simp] theorem Dev.setFld_freeNo (b : Nat) (f : Fld) (v : Nat) : (d.setFld b f v).freeNo = d.freeNo := rfl
@[simp] theorem Dev.setFld_portA (b : Nat) (f : Fld) (v : Nat) : (d.setFld b f v).portA = d.portA := rfl
@[simp] theorem Dev.setFld_portB (b : Nat) (f : Fld) (v : Nat) : (d.setFld b f v).portB = d.portB := rfl
@[simp] theorem Dev.setFld_portC (b : Nat) (f : Fld) (v : Nat) : (d.setFld b f v).portC = d.portC := rfl
@[simp] theorem Dev.setFld_pool (b : Nat) (f : Fld) (v : Nat) : (d.setFld b f v).pool = d.pool := rfl
@[simp] theorem Dev.setFld_pool7 (b : Nat) (f : Fld) (v : Nat) : (d.setFld b f v).pool7 = d.pool7 := rfl
@[simp] theorem Dev.setFld_ses (b : Nat) (f : Fld) (v : Nat) : (d.setFld b f v).ses = d.ses := rfl
@[simp] theorem Dev.setFld_disp (b : Nat) (f : Fld) (v : Nat) : (d.setFld b f v).disp = d.disp := rfl
@[simp] theorem Dev.setFld_pol (b : Nat) (f : Fld) (v : Nat) : (d.setFld b f v).pol = d.pol := rfl
@[simp] theorem Dev.setFld_irq (b : Nat) (f : Fld) (v : Nat) : (d.setFld b f v).irq = d.irq := rfl
@[simp] theorem Dev.setFld_cal (b : Nat) (f : Fld) (v : Nat) : (d.setFld b f v).cal = d.cal := rfl
@[simp] theorem Dev.setFld_evr (b : Nat) (f : Fld) (v : Nat) : (d.setFld b f v).evr = d.evr := rfl
@[simp] theorem Dev.setFld_sws (b : Nat) (f : Fld) (v : Nat) : (d.setFld b f v).sws = d.sws := rfl
@[simp] theorem Dev.setFld_pw (b : Nat) (f : Fld) (v : Nat) : (d.setFld b f v).pw = d.pw := rfl
@[simp] theorem Dev.setFld_io (b : Nat) (f : Fld) (v : Nat) : (d.setFld b f v).io = d.io := rfl
@[simp] theorem Dev.setFld_boot (b : Nat) (f : Fld) (v : Nat) : (d.setFld b f v).boot = d.boot := rfl
@[simp] theorem Dev.setFld_adm (b : Nat) (f : Fld) (v : Nat) : (d.setFld b f v).adm = d.adm := rfl
@[simp] theorem Dev.setFld_port (b : Nat) (f : Fld) (v : Nat) (x : PortId) : (d.setFld b f v).port x = d.port x := by cases x <;> rfl
@[simp] theorem Dev.setFld_ctx (b : Nat) (f : Fld) (v : Nat) (x : Nat) : (d.setFld b f v).ctx x = d.ctx x := rfl
@[simp] theorem Dev.setFld_cmd (b : Nat) (f : Fld) (v : Nat) (x : Nat) : (d.setFld b f v).cmd x = d.cmd x := rfl
@[simp] theorem Dev.setFld_sw (b : Nat) (f : Fld) (v : Nat) (x : Fin 16) : (d.setFld b f v).sw x = d.sw x := rfl
@[simp] theorem Dev.setFld_src (b : Nat) (f : Fld) (v : Nat) (x : Nat) : (d.setFld b f v).src x = d.src x := rfl
@[simp] theorem Dev.setFld_pathReg (b : Nat) (f : Fld) (v : Nat) (x : ReqPath) (y : Nat) : (d.setFld b f v).pathReg x y = d.pathReg x y := rfl

/-! ### bump -/

@[simp] theorem Dev.bump_prs (b : Nat) (f : Fld) : (d.bump b f).prs = d.prs := Dev.countTo_keeps (fun e : Dev => e.prs) (fun _ _ _ => rfl) (fun _ _ _ => rfl) _ _ _
@[simp] theorem Dev.bump_now (b : Nat) (f : Fld) : (d.bump b f).now = d.now := Dev.countTo_keeps (fun e : Dev => e.now) (fun _ _ _ => rfl) (fun _ _ _ => rfl) _ _ _
@[simp] theorem Dev.bump_freeNo (b : Nat) (f : Fld) : (d.bump b f).freeNo = d.freeNo := Dev.countTo_keeps (fun e : Dev => e.freeNo) (fun _ _ _ => rfl) (fun _ _ _ => rfl) _ _ _
@[simp] theorem Dev.bump_portA (b : Nat) (f : Fld) : (d.bump b f).portA = d.portA := Dev.countTo_keeps (fun e : Dev => e.portA) (fun _ _ _ => rfl) (fun _ _ _ => rfl) _ _ _
@[simp] theorem Dev.bump_portB (b : Nat) (f : Fld) : (d.bump b f).portB = d.portB := Dev.countTo_keeps (fun e : Dev => e.portB) (fun _ _ _ => rfl) (fun _ _ _ => rfl) _ _ _
@[simp] theorem Dev.bump_portC (b : Nat) (f : Fld) : (d.bump b f).portC = d.portC := Dev.countTo_keeps (fun e : Dev => e.portC) (fun _ _ _ => rfl) (fun _ _ _ => rfl) _ _ _
@[simp] theorem Dev.bump_pool (b : Nat) (f : Fld) : (d.bump b f).pool = d.pool := Dev.countTo_keeps (fun e : Dev => e.pool) (fun _ _ _ => rfl) (fun _ _ _ => rfl) _ _ _
@[simp] theorem Dev.bump_pool7 (b : Nat) (f : Fld) : (d.bump b f).pool7 = d.pool7 := Dev.countTo_keeps (fun e : Dev => e.pool7) (fun _ _ _ => rfl) (fun _ _ _ => rfl) _ _ _
@[simp] theorem Dev.bump_ses (b : Nat) (f : Fld) : (d.bump b f).ses = d.ses := Dev.countTo_keeps (fun e : Dev => e.ses) (fun _ _ _ => rfl) (fun _ _ _ => rfl) _ _ _
@[simp] theorem Dev.bump_disp (b : Nat) (f : Fld) : (d.bump b f).disp = d.disp := Dev.countTo_keeps (fun e : Dev => e.disp) (fun _ _ _ => rfl) (fun _ _ _ => rfl) _ _ _
@[simp] theorem Dev.bump_pol (b : Nat) (f : Fld) : (d.bump b f).pol = d.pol := Dev.countTo_keeps (fun e : Dev => e.pol) (fun _ _ _ => rfl) (fun _ _ _ => rfl) _ _ _
@[simp] theorem Dev.bump_cal (b : Nat) (f : Fld) : (d.bump b f).cal = d.cal := Dev.countTo_keeps (fun e : Dev => e.cal) (fun _ _ _ => rfl) (fun _ _ _ => rfl) _ _ _
@[simp] theorem Dev.bump_evr (b : Nat) (f : Fld) : (d.bump b f).evr = d.evr := Dev.countTo_keeps (fun e : Dev => e.evr) (fun _ _ _ => rfl) (fun _ _ _ => rfl) _ _ _
@[simp] theorem Dev.bump_sws (b : Nat) (f : Fld) : (d.bump b f).sws = d.sws := Dev.countTo_keeps (fun e : Dev => e.sws) (fun _ _ _ => rfl) (fun _ _ _ => rfl) _ _ _
@[simp] theorem Dev.bump_pw (b : Nat) (f : Fld) : (d.bump b f).pw = d.pw := Dev.countTo_keeps (fun e : Dev => e.pw) (fun _ _ _ => rfl) (fun _ _ _ => rfl) _ _ _
@[simp] theorem Dev.bump_io (b : Nat) (f : Fld) : (d.bump b f).io = d.io := Dev.countTo_keeps (fun e : Dev => e.io) (fun _ _ _ => rfl) (fun _ _ _ => rfl) _ _ _
@[simp] theorem Dev.bump_boot (b : Nat) (f : Fld) : (d.bump b f).boot = d.boot := Dev.countTo_keeps (fun e : Dev => e.boot) (fun _ _ _ => rfl) (fun _ _ _ => rfl) _ _ _
@[simp] theorem Dev.bump_adm (b : Nat) (f : Fld) : (d.bump b f).adm = d.adm := Dev.countTo_keeps (fun e : Dev => e.adm) (fun _ _ _ => rfl) (fun _ _ _ => rfl) _ _ _
@[simp] theorem Dev.bump_port (b : Nat) (f : Fld) (x : PortId) : (d.bump b f).port x = d.port x := Dev.countTo_keeps (fun e : Dev => e.port x) (fun _ _ _ => by cases x <;> rfl) (fun _ _ _ => by cases x <;> rfl) _ _ _
@[simp] theorem Dev.bump_ctx (b : Nat) (f : Fld) (x : Nat) : (d.bump b f).ctx x = d.ctx x := Dev.countTo_keeps (fun e : Dev => e.ctx x) (fun _ _ _ => rfl) (fun _ _ _ => rfl) _ _ _
@[simp] theorem Dev.bump_cmd (b : Nat) (f : Fld) (x : Nat) : (d.bump b f).cmd x = d.cmd x := Dev.countTo_keeps (fun e : Dev => e.cmd x) (fun _ _ _ => rfl) (fun _ _ _ => rfl) _ _ _
@[simp] theorem Dev.bump_sw (b : Nat) (f : Fld) (x : Fin 16) : (d.bump b f).sw x = d.sw x := Dev.countTo_keeps (fun e : Dev => e.sw x) (fun _ _ _ => rfl) (fun _ _ _ => rfl) _ _ _
@[simp] theorem Dev.bump_pathReg (b : Nat) (f : Fld) (x : ReqPath) (y : Nat) : (d.bump b f).pathReg x y = d.pathReg x y := Dev.countTo_keeps (fun e : Dev => e.pathReg x y) (fun _ _ _ => rfl) (fun _ _ _ => rfl) _ _ _

/-! ### bumpBy -/

@[simp] theorem Dev.bumpBy_prs (b : Nat) (f : Fld) (n : Nat) : (d.bumpBy b f n).prs = d.prs := Dev.countTo_keeps (fun e : Dev => e.prs) (fun _ _ _ => rfl) (fun _ _ _ => rfl) _ _ _
@[simp] theorem Dev.bumpBy_now (b : Nat) (f : Fld) (n : Nat) : (d.bumpBy b f n).now = d.now := Dev.countTo_keeps (fun e : Dev => e.now) (fun _ _ _ => rfl) (fun _ _ _ => rfl) _ _ _
@[simp] theorem Dev.bumpBy_freeNo (b : Nat) (f : Fld) (n : Nat) : (d.bumpBy b f n).freeNo = d.freeNo := Dev.countTo_keeps (fun e : Dev => e.freeNo) (fun _ _ _ => rfl) (fun _ _ _ => rfl) _ _ _
@[simp] theorem Dev.bumpBy_portA (b : Nat) (f : Fld) (n : Nat) : (d.bumpBy b f n).portA = d.portA := Dev.countTo_keeps (fun e : Dev => e.portA) (fun _ _ _ => rfl) (fun _ _ _ => rfl) _ _ _
@[simp] theorem Dev.bumpBy_portB (b : Nat) (f : Fld) (n : Nat) : (d.bumpBy b f n).portB = d.portB := Dev.countTo_keeps (fun e : Dev => e.portB) (fun _ _ _ => rfl) (fun _ _ _ => rfl) _ _ _
@[simp] theorem Dev.bumpBy_portC (b : Nat) (f : Fld) (n : Nat) : (d.bumpBy b f n).portC = d.portC := Dev.countTo_keeps (fun e : Dev => e.portC) (fun _ _ _ => rfl) (fun _ _ _ => rfl) _ _ _
@[simp] theorem Dev.bumpBy_pool (b : Nat) (f : Fld) (n : Nat) : (d.bumpBy b f n).pool = d.pool := Dev.countTo_keeps (fun e : Dev => e.pool) (fun _ _ _ => rfl) (fun _ _ _ => rfl) _ _ _
@[simp] theorem Dev.bumpBy_pool7 (b : Nat) (f : Fld) (n : Nat) : (d.bumpBy b f n).pool7 = d.pool7 := Dev.countTo_keeps (fun e : Dev => e.pool7) (fun _ _ _ => rfl) (fun _ _ _ => rfl) _ _ _
@[simp] theorem Dev.bumpBy_ses (b : Nat) (f : Fld) (n : Nat) : (d.bumpBy b f n).ses = d.ses := Dev.countTo_keeps (fun e : Dev => e.ses) (fun _ _ _ => rfl) (fun _ _ _ => rfl) _ _ _
@[simp] theorem Dev.bumpBy_disp (b : Nat) (f : Fld) (n : Nat) : (d.bumpBy b f n).disp = d.disp := Dev.countTo_keeps (fun e : Dev => e.disp) (fun _ _ _ => rfl) (fun _ _ _ => rfl) _ _ _
@[simp] theorem Dev.bumpBy_pol (b : Nat) (f : Fld) (n : Nat) : (d.bumpBy b f n).pol = d.pol := Dev.countTo_keeps (fun e : Dev => e.pol) (fun _ _ _ => rfl) (fun _ _ _ => rfl) _ _ _
@[simp] theorem Dev.bumpBy_cal (b : Nat) (f : Fld) (n : Nat) : (d.bumpBy b f n).cal = d.cal := Dev.countTo_keeps (fun e : Dev => e.cal) (fun _ _ _ => rfl) (fun _ _ _ => rfl) _ _ _
@[simp] theorem Dev.bumpBy_evr (b : Nat) (f : Fld) (n : Nat) : (d.bumpBy b f n).evr = d.evr := Dev.countTo_keeps (fun e : Dev => e.evr) (fun _ _ _ => rfl) (fun _ _ _ => rfl) _ _ _
@[simp] theorem Dev.bumpBy_sws (b : Nat) (f : Fld) (n : Nat) : (d.bumpBy b f n).sws = d.sws := Dev.countTo_keeps (fun e : Dev => e.sws) (fun _ _ _ => rfl) (fun _ _ _ => rfl) _ _ _
@[simp] theorem Dev.bumpBy_pw (b : Nat) (f : Fld) (n : Nat) : (d.bumpBy b f n).pw = d.pw := Dev.countTo_keeps (fun e : Dev => e.pw) (fun _ _ _ => rfl) (fun _ _ _ => rfl) _ _ _
@[simp] theorem Dev.bumpBy_io (b : Nat) (f : Fld) (n : Nat) : (d.bumpBy b f n).io = d.io := Dev.countTo_keeps (fun e : Dev => e.io) (fun _ _ _ => rfl) (fun _ _ _ => rfl) _ _ _
@[simp] theorem Dev.bumpBy_boot (b : Nat) (f : Fld) (n : Nat) : (d.bumpBy b f n).boot = d.boot := Dev.countTo_keeps (fun e : Dev => e.boot) (fun _ _ _ => rfl) (fun _ _ _ => rfl) _ _ _
@[simp] theorem Dev.bumpBy_adm (b : Nat) (f : Fld) (n : Nat) : (d.bumpBy b f n).adm = d.adm := Dev.countTo_keeps (fun e : Dev => e.adm) (fun _ _ _ => rfl) (fun _ _ _ => rfl) _ _ _
@[simp] theorem Dev.bumpBy_port (b : Nat) (f : Fld) (n : Nat) (x : PortId) : (d.bumpBy b f n).port x = d.port x := Dev.countTo_keeps (fun e : Dev => e.port x) (fun _ _ _ => by cases x <;> rfl) (fun _ _ _ => by cases x <;> rfl) _ _ _
@[simp] theorem Dev.bumpBy_ctx (b : Nat) (f : Fld) (n : Nat) (x : Nat) : (d.bumpBy b f n).ctx x = d.ctx x := Dev.countTo_keeps (fun e : Dev => e.ctx x) (fun _ _ _ => rfl) (fun _ _ _ => rfl) _ _ _
@[simp] theorem Dev.bumpBy_cmd (b : Nat) (f : Fld) (n : Nat) (x : Nat) : (d.bumpBy b f n).cmd x = d.cmd x := Dev.countTo_keeps (fun e : Dev => e.cmd x) (fun _ _ _ => rfl) (fun _ _ _ => rfl) _ _ _
@[simp] theorem Dev.bumpBy_sw (b : Nat) (f : Fld) (n : Nat) (x : Fin 16) : (d.bumpBy b f n).sw x = d.sw x := Dev.countTo_keeps (fun e : Dev => e.sw x) (fun _ _ _ => rfl) (fun _ _ _ => rfl) _ _ _
@[simp] theorem Dev.bumpBy_pathReg (b : Nat) (f : Fld) (n : Nat) (x : ReqPath) (y : Nat) : (d.bumpBy b f n).pathReg x y = d.pathReg x y := Dev.countTo_keeps (fun e : Dev => e.pathReg x y) (fun _ _ _ => rfl) (fun _ _ _ => rfl) _ _ _

/-- A count in a register with no half-range source changes no source. -/
theorem Dev.bump_irq (b : Nat) (f : Fld) (h : halfSrc (b + f.off) = none) : (d.bump b f).irq = d.irq := by
  rcases d.countTo_cases (b + f.off) (d.reg (b + f.off) + 1) with e | ⟨k, hk, _⟩
  · unfold Dev.bump; rw [e]; rfl
  · rw [h] at hk; cases hk

@[simp] theorem Dev.bump_gen_irq : (d.bump Base.dsp F.DSP_PLC_GEN_GEN).irq = d.irq := d.bump_irq _ _ rfl
@[simp] theorem Dev.bump_gen_src (x : Nat) : (d.bump Base.dsp F.DSP_PLC_GEN_GEN).src x = d.src x :=
  congrArg (fun i : Irq => lookD x IrqSrc.idle i.src) (d.bump_irq Base.dsp F.DSP_PLC_GEN_GEN rfl)

/-! ### tally -/

@[simp] theorem Dev.tally_prs (b : Nat) (f : Fld) (n : Nat) : (d.tally b f n).prs = d.prs := rfl
@[simp] theorem Dev.tally_now (b : Nat) (f : Fld) (n : Nat) : (d.tally b f n).now = d.now := rfl
@[simp] theorem Dev.tally_freeNo (b : Nat) (f : Fld) (n : Nat) : (d.tally b f n).freeNo = d.freeNo := rfl
@[simp] theorem Dev.tally_portA (b : Nat) (f : Fld) (n : Nat) : (d.tally b f n).portA = d.portA := rfl
@[simp] theorem Dev.tally_portB (b : Nat) (f : Fld) (n : Nat) : (d.tally b f n).portB = d.portB := rfl
@[simp] theorem Dev.tally_portC (b : Nat) (f : Fld) (n : Nat) : (d.tally b f n).portC = d.portC := rfl
@[simp] theorem Dev.tally_pool (b : Nat) (f : Fld) (n : Nat) : (d.tally b f n).pool = d.pool := rfl
@[simp] theorem Dev.tally_pool7 (b : Nat) (f : Fld) (n : Nat) : (d.tally b f n).pool7 = d.pool7 := rfl
@[simp] theorem Dev.tally_ses (b : Nat) (f : Fld) (n : Nat) : (d.tally b f n).ses = d.ses := rfl
@[simp] theorem Dev.tally_disp (b : Nat) (f : Fld) (n : Nat) : (d.tally b f n).disp = d.disp := rfl
@[simp] theorem Dev.tally_pol (b : Nat) (f : Fld) (n : Nat) : (d.tally b f n).pol = d.pol := rfl
@[simp] theorem Dev.tally_irq (b : Nat) (f : Fld) (n : Nat) : (d.tally b f n).irq = d.irq := rfl
@[simp] theorem Dev.tally_cal (b : Nat) (f : Fld) (n : Nat) : (d.tally b f n).cal = d.cal := rfl
@[simp] theorem Dev.tally_evr (b : Nat) (f : Fld) (n : Nat) : (d.tally b f n).evr = d.evr := rfl
@[simp] theorem Dev.tally_sws (b : Nat) (f : Fld) (n : Nat) : (d.tally b f n).sws = d.sws := rfl
@[simp] theorem Dev.tally_pw (b : Nat) (f : Fld) (n : Nat) : (d.tally b f n).pw = d.pw := rfl
@[simp] theorem Dev.tally_io (b : Nat) (f : Fld) (n : Nat) : (d.tally b f n).io = d.io := rfl
@[simp] theorem Dev.tally_boot (b : Nat) (f : Fld) (n : Nat) : (d.tally b f n).boot = d.boot := rfl
@[simp] theorem Dev.tally_adm (b : Nat) (f : Fld) (n : Nat) : (d.tally b f n).adm = d.adm := rfl
@[simp] theorem Dev.tally_port (b : Nat) (f : Fld) (n : Nat) (x : PortId) : (d.tally b f n).port x = d.port x := by cases x <;> rfl
@[simp] theorem Dev.tally_ctx (b : Nat) (f : Fld) (n : Nat) (x : Nat) : (d.tally b f n).ctx x = d.ctx x := rfl
@[simp] theorem Dev.tally_cmd (b : Nat) (f : Fld) (n : Nat) (x : Nat) : (d.tally b f n).cmd x = d.cmd x := rfl
@[simp] theorem Dev.tally_sw (b : Nat) (f : Fld) (n : Nat) (x : Fin 16) : (d.tally b f n).sw x = d.sw x := rfl
@[simp] theorem Dev.tally_src (b : Nat) (f : Fld) (n : Nat) (x : Nat) : (d.tally b f n).src x = d.src x := rfl
@[simp] theorem Dev.tally_pathReg (b : Nat) (f : Fld) (n : Nat) (x : ReqPath) (y : Nat) : (d.tally b f n).pathReg x y = d.pathReg x y := rfl
theorem Dev.reg_tally_ne (d : Dev) (b a n : Nat) (f : Fld) (h : b + f.off ≠ a) :
    (d.tally b f n).reg a = d.reg a := by simp [Dev.tally, Dev.reg_setReg, h]

/-! ### setPathReg -/

@[simp] theorem Dev.setPathReg_regs (p : ReqPath) (a : Nat) (w : Word) : (d.setPathReg p a w).regs = d.regs := rfl
@[simp] theorem Dev.setPathReg_now (p : ReqPath) (a : Nat) (w : Word) : (d.setPathReg p a w).now = d.now := rfl
@[simp] theorem Dev.setPathReg_freeNo (p : ReqPath) (a : Nat) (w : Word) : (d.setPathReg p a w).freeNo = d.freeNo := rfl
@[simp] theorem Dev.setPathReg_portA (p : ReqPath) (a : Nat) (w : Word) : (d.setPathReg p a w).portA = d.portA := rfl
@[simp] theorem Dev.setPathReg_portB (p : ReqPath) (a : Nat) (w : Word) : (d.setPathReg p a w).portB = d.portB := rfl
@[simp] theorem Dev.setPathReg_portC (p : ReqPath) (a : Nat) (w : Word) : (d.setPathReg p a w).portC = d.portC := rfl
@[simp] theorem Dev.setPathReg_pool (p : ReqPath) (a : Nat) (w : Word) : (d.setPathReg p a w).pool = d.pool := rfl
@[simp] theorem Dev.setPathReg_pool7 (p : ReqPath) (a : Nat) (w : Word) : (d.setPathReg p a w).pool7 = d.pool7 := rfl
@[simp] theorem Dev.setPathReg_ses (p : ReqPath) (a : Nat) (w : Word) : (d.setPathReg p a w).ses = d.ses := rfl
@[simp] theorem Dev.setPathReg_disp (p : ReqPath) (a : Nat) (w : Word) : (d.setPathReg p a w).disp = d.disp := rfl
@[simp] theorem Dev.setPathReg_pol (p : ReqPath) (a : Nat) (w : Word) : (d.setPathReg p a w).pol = d.pol := rfl
@[simp] theorem Dev.setPathReg_irq (p : ReqPath) (a : Nat) (w : Word) : (d.setPathReg p a w).irq = d.irq := rfl
@[simp] theorem Dev.setPathReg_cal (p : ReqPath) (a : Nat) (w : Word) : (d.setPathReg p a w).cal = d.cal := rfl
@[simp] theorem Dev.setPathReg_evr (p : ReqPath) (a : Nat) (w : Word) : (d.setPathReg p a w).evr = d.evr := rfl
@[simp] theorem Dev.setPathReg_sws (p : ReqPath) (a : Nat) (w : Word) : (d.setPathReg p a w).sws = d.sws := rfl
@[simp] theorem Dev.setPathReg_pw (p : ReqPath) (a : Nat) (w : Word) : (d.setPathReg p a w).pw = d.pw := rfl
@[simp] theorem Dev.setPathReg_io (p : ReqPath) (a : Nat) (w : Word) : (d.setPathReg p a w).io = d.io := rfl
@[simp] theorem Dev.setPathReg_boot (p : ReqPath) (a : Nat) (w : Word) : (d.setPathReg p a w).boot = d.boot := rfl
@[simp] theorem Dev.setPathReg_adm (p : ReqPath) (a : Nat) (w : Word) : (d.setPathReg p a w).adm = d.adm := rfl
@[simp] theorem Dev.setPathReg_reg (p : ReqPath) (a : Nat) (w : Word) (x : Nat) : (d.setPathReg p a w).reg x = d.reg x := rfl
@[simp] theorem Dev.setPathReg_fld (p : ReqPath) (a : Nat) (w : Word) (x : Nat) (g : Fld) : (d.setPathReg p a w).fld x g = d.fld x g := rfl
@[simp] theorem Dev.setPathReg_flag (p : ReqPath) (a : Nat) (w : Word) (x : Nat) (g : Fld) : (d.setPathReg p a w).flag x g = d.flag x g := by simp [Dev.flag]
@[simp] theorem Dev.setPathReg_port (p : ReqPath) (a : Nat) (w : Word) (x : PortId) : (d.setPathReg p a w).port x = d.port x := by cases x <;> rfl
@[simp] theorem Dev.setPathReg_ctx (p : ReqPath) (a : Nat) (w : Word) (x : Nat) : (d.setPathReg p a w).ctx x = d.ctx x := rfl
@[simp] theorem Dev.setPathReg_cmd (p : ReqPath) (a : Nat) (w : Word) (x : Nat) : (d.setPathReg p a w).cmd x = d.cmd x := rfl
@[simp] theorem Dev.setPathReg_sw (p : ReqPath) (a : Nat) (w : Word) (x : Fin 16) : (d.setPathReg p a w).sw x = d.sw x := rfl
@[simp] theorem Dev.setPathReg_src (p : ReqPath) (a : Nat) (w : Word) (x : Nat) : (d.setPathReg p a w).src x = d.src x := rfl

/-! ### updDisp -/

@[simp] theorem Dev.updDisp_regs (f : Disp → Disp) : (d.updDisp f).regs = d.regs := rfl
@[simp] theorem Dev.updDisp_prs (f : Disp → Disp) : (d.updDisp f).prs = d.prs := rfl
@[simp] theorem Dev.updDisp_now (f : Disp → Disp) : (d.updDisp f).now = d.now := rfl
@[simp] theorem Dev.updDisp_freeNo (f : Disp → Disp) : (d.updDisp f).freeNo = d.freeNo := rfl
@[simp] theorem Dev.updDisp_portA (f : Disp → Disp) : (d.updDisp f).portA = d.portA := rfl
@[simp] theorem Dev.updDisp_portB (f : Disp → Disp) : (d.updDisp f).portB = d.portB := rfl
@[simp] theorem Dev.updDisp_portC (f : Disp → Disp) : (d.updDisp f).portC = d.portC := rfl
@[simp] theorem Dev.updDisp_pool (f : Disp → Disp) : (d.updDisp f).pool = d.pool := rfl
@[simp] theorem Dev.updDisp_pool7 (f : Disp → Disp) : (d.updDisp f).pool7 = d.pool7 := rfl
@[simp] theorem Dev.updDisp_ses (f : Disp → Disp) : (d.updDisp f).ses = d.ses := rfl
@[simp] theorem Dev.updDisp_pol (f : Disp → Disp) : (d.updDisp f).pol = d.pol := rfl
@[simp] theorem Dev.updDisp_irq (f : Disp → Disp) : (d.updDisp f).irq = d.irq := rfl
@[simp] theorem Dev.updDisp_cal (f : Disp → Disp) : (d.updDisp f).cal = d.cal := rfl
@[simp] theorem Dev.updDisp_evr (f : Disp → Disp) : (d.updDisp f).evr = d.evr := rfl
@[simp] theorem Dev.updDisp_sws (f : Disp → Disp) : (d.updDisp f).sws = d.sws := rfl
@[simp] theorem Dev.updDisp_pw (f : Disp → Disp) : (d.updDisp f).pw = d.pw := rfl
@[simp] theorem Dev.updDisp_io (f : Disp → Disp) : (d.updDisp f).io = d.io := rfl
@[simp] theorem Dev.updDisp_boot (f : Disp → Disp) : (d.updDisp f).boot = d.boot := rfl
@[simp] theorem Dev.updDisp_adm (f : Disp → Disp) : (d.updDisp f).adm = d.adm := rfl
@[simp] theorem Dev.updDisp_reg (f : Disp → Disp) (x : Nat) : (d.updDisp f).reg x = d.reg x := rfl
@[simp] theorem Dev.updDisp_fld (f : Disp → Disp) (x : Nat) (g : Fld) : (d.updDisp f).fld x g = d.fld x g := rfl
@[simp] theorem Dev.updDisp_flag (f : Disp → Disp) (x : Nat) (g : Fld) : (d.updDisp f).flag x g = d.flag x g := by simp [Dev.flag]
@[simp] theorem Dev.updDisp_port (f : Disp → Disp) (x : PortId) : (d.updDisp f).port x = d.port x := by cases x <;> rfl
@[simp] theorem Dev.updDisp_ctx (f : Disp → Disp) (x : Nat) : (d.updDisp f).ctx x = d.ctx x := rfl
@[simp] theorem Dev.updDisp_sw (f : Disp → Disp) (x : Fin 16) : (d.updDisp f).sw x = d.sw x := rfl
@[simp] theorem Dev.updDisp_src (f : Disp → Disp) (x : Nat) : (d.updDisp f).src x = d.src x := rfl
@[simp] theorem Dev.updDisp_pathReg (f : Disp → Disp) (x : ReqPath) (y : Nat) : (d.updDisp f).pathReg x y = d.pathReg x y := rfl

/-! ### updCmd -/

@[simp] theorem Dev.updCmd_regs (c : Nat) (f : Cmd → Cmd) : (d.updCmd c f).regs = d.regs := rfl
@[simp] theorem Dev.updCmd_prs (c : Nat) (f : Cmd → Cmd) : (d.updCmd c f).prs = d.prs := rfl
@[simp] theorem Dev.updCmd_now (c : Nat) (f : Cmd → Cmd) : (d.updCmd c f).now = d.now := rfl
@[simp] theorem Dev.updCmd_freeNo (c : Nat) (f : Cmd → Cmd) : (d.updCmd c f).freeNo = d.freeNo := rfl
@[simp] theorem Dev.updCmd_portA (c : Nat) (f : Cmd → Cmd) : (d.updCmd c f).portA = d.portA := rfl
@[simp] theorem Dev.updCmd_portB (c : Nat) (f : Cmd → Cmd) : (d.updCmd c f).portB = d.portB := rfl
@[simp] theorem Dev.updCmd_portC (c : Nat) (f : Cmd → Cmd) : (d.updCmd c f).portC = d.portC := rfl
@[simp] theorem Dev.updCmd_pool (c : Nat) (f : Cmd → Cmd) : (d.updCmd c f).pool = d.pool := rfl
@[simp] theorem Dev.updCmd_pool7 (c : Nat) (f : Cmd → Cmd) : (d.updCmd c f).pool7 = d.pool7 := rfl
@[simp] theorem Dev.updCmd_ses (c : Nat) (f : Cmd → Cmd) : (d.updCmd c f).ses = d.ses := rfl
@[simp] theorem Dev.updCmd_pol (c : Nat) (f : Cmd → Cmd) : (d.updCmd c f).pol = d.pol := rfl
@[simp] theorem Dev.updCmd_irq (c : Nat) (f : Cmd → Cmd) : (d.updCmd c f).irq = d.irq := rfl
@[simp] theorem Dev.updCmd_cal (c : Nat) (f : Cmd → Cmd) : (d.updCmd c f).cal = d.cal := rfl
@[simp] theorem Dev.updCmd_evr (c : Nat) (f : Cmd → Cmd) : (d.updCmd c f).evr = d.evr := rfl
@[simp] theorem Dev.updCmd_sws (c : Nat) (f : Cmd → Cmd) : (d.updCmd c f).sws = d.sws := rfl
@[simp] theorem Dev.updCmd_pw (c : Nat) (f : Cmd → Cmd) : (d.updCmd c f).pw = d.pw := rfl
@[simp] theorem Dev.updCmd_io (c : Nat) (f : Cmd → Cmd) : (d.updCmd c f).io = d.io := rfl
@[simp] theorem Dev.updCmd_boot (c : Nat) (f : Cmd → Cmd) : (d.updCmd c f).boot = d.boot := rfl
@[simp] theorem Dev.updCmd_adm (c : Nat) (f : Cmd → Cmd) : (d.updCmd c f).adm = d.adm := rfl
@[simp] theorem Dev.updCmd_reg (c : Nat) (f : Cmd → Cmd) (x : Nat) : (d.updCmd c f).reg x = d.reg x := rfl
@[simp] theorem Dev.updCmd_fld (c : Nat) (f : Cmd → Cmd) (x : Nat) (g : Fld) : (d.updCmd c f).fld x g = d.fld x g := rfl
@[simp] theorem Dev.updCmd_flag (c : Nat) (f : Cmd → Cmd) (x : Nat) (g : Fld) : (d.updCmd c f).flag x g = d.flag x g := by simp [Dev.flag]
@[simp] theorem Dev.updCmd_port (c : Nat) (f : Cmd → Cmd) (x : PortId) : (d.updCmd c f).port x = d.port x := by cases x <;> rfl
@[simp] theorem Dev.updCmd_ctx (c : Nat) (f : Cmd → Cmd) (x : Nat) : (d.updCmd c f).ctx x = d.ctx x := rfl
@[simp] theorem Dev.updCmd_sw (c : Nat) (f : Cmd → Cmd) (x : Fin 16) : (d.updCmd c f).sw x = d.sw x := rfl
@[simp] theorem Dev.updCmd_src (c : Nat) (f : Cmd → Cmd) (x : Nat) : (d.updCmd c f).src x = d.src x := rfl
@[simp] theorem Dev.updCmd_pathReg (c : Nat) (f : Cmd → Cmd) (x : ReqPath) (y : Nat) : (d.updCmd c f).pathReg x y = d.pathReg x y := rfl

/-! ### dropCmd -/

@[simp] theorem Dev.dropCmd_regs (c : Nat) : (d.dropCmd c).regs = d.regs := by unfold Dev.dropCmd; simp only; split <;> rfl
@[simp] theorem Dev.dropCmd_prs (c : Nat) : (d.dropCmd c).prs = d.prs := by unfold Dev.dropCmd; simp only; split <;> rfl
@[simp] theorem Dev.dropCmd_now (c : Nat) : (d.dropCmd c).now = d.now := by unfold Dev.dropCmd; simp only; split <;> rfl
@[simp] theorem Dev.dropCmd_freeNo (c : Nat) : (d.dropCmd c).freeNo = d.freeNo := by unfold Dev.dropCmd; simp only; split <;> rfl
@[simp] theorem Dev.dropCmd_portA (c : Nat) : (d.dropCmd c).portA = d.portA := by unfold Dev.dropCmd; simp only; split <;> rfl
@[simp] theorem Dev.dropCmd_portB (c : Nat) : (d.dropCmd c).portB = d.portB := by unfold Dev.dropCmd; simp only; split <;> rfl
@[simp] theorem Dev.dropCmd_portC (c : Nat) : (d.dropCmd c).portC = d.portC := by unfold Dev.dropCmd; simp only; split <;> rfl
@[simp] theorem Dev.dropCmd_pool (c : Nat) : (d.dropCmd c).pool = d.pool := by unfold Dev.dropCmd; simp only; split <;> rfl
@[simp] theorem Dev.dropCmd_pool7 (c : Nat) : (d.dropCmd c).pool7 = d.pool7 := by unfold Dev.dropCmd; simp only; split <;> rfl
@[simp] theorem Dev.dropCmd_ses (c : Nat) : (d.dropCmd c).ses = d.ses := by unfold Dev.dropCmd; simp only; split <;> rfl
@[simp] theorem Dev.dropCmd_pol (c : Nat) : (d.dropCmd c).pol = d.pol := by unfold Dev.dropCmd; simp only; split <;> rfl
@[simp] theorem Dev.dropCmd_irq (c : Nat) : (d.dropCmd c).irq = d.irq := by unfold Dev.dropCmd; simp only; split <;> rfl
@[simp] theorem Dev.dropCmd_cal (c : Nat) : (d.dropCmd c).cal = d.cal := by unfold Dev.dropCmd; simp only; split <;> rfl
@[simp] theorem Dev.dropCmd_evr (c : Nat) : (d.dropCmd c).evr = d.evr := by unfold Dev.dropCmd; simp only; split <;> rfl
@[simp] theorem Dev.dropCmd_pw (c : Nat) : (d.dropCmd c).pw = d.pw := by unfold Dev.dropCmd; simp only; split <;> rfl
@[simp] theorem Dev.dropCmd_io (c : Nat) : (d.dropCmd c).io = d.io := by unfold Dev.dropCmd; simp only; split <;> rfl
@[simp] theorem Dev.dropCmd_boot (c : Nat) : (d.dropCmd c).boot = d.boot := by unfold Dev.dropCmd; simp only; split <;> rfl
@[simp] theorem Dev.dropCmd_adm (c : Nat) : (d.dropCmd c).adm = d.adm := by unfold Dev.dropCmd; simp only; split <;> rfl
@[simp] theorem Dev.dropCmd_reg (c : Nat) (x : Nat) : (d.dropCmd c).reg x = d.reg x := by unfold Dev.dropCmd; simp only; split <;> rfl
@[simp] theorem Dev.dropCmd_fld (c : Nat) (x : Nat) (g : Fld) : (d.dropCmd c).fld x g = d.fld x g := by unfold Dev.dropCmd; simp only; split <;> rfl
@[simp] theorem Dev.dropCmd_flag (c : Nat) (x : Nat) (g : Fld) : (d.dropCmd c).flag x g = d.flag x g := by simp [Dev.flag]
@[simp] theorem Dev.dropCmd_port (c : Nat) (x : PortId) : (d.dropCmd c).port x = d.port x := by unfold Dev.dropCmd; simp only; split <;> rfl
@[simp] theorem Dev.dropCmd_ctx (c : Nat) (x : Nat) : (d.dropCmd c).ctx x = d.ctx x := by unfold Dev.dropCmd; simp only; split <;> rfl
@[simp] theorem Dev.dropCmd_src (c : Nat) (x : Nat) : (d.dropCmd c).src x = d.src x := by unfold Dev.dropCmd; simp only; split <;> rfl
@[simp] theorem Dev.dropCmd_pathReg (c : Nat) (x : ReqPath) (y : Nat) : (d.dropCmd c).pathReg x y = d.pathReg x y := by unfold Dev.dropCmd; simp only; split <;> rfl

/-! ### setCtx -/

@[simp] theorem Dev.setCtx_regs (i : Nat) (c : Ctx) : (d.setCtx i c).regs = d.regs := rfl
@[simp] theorem Dev.setCtx_prs (i : Nat) (c : Ctx) : (d.setCtx i c).prs = d.prs := rfl
@[simp] theorem Dev.setCtx_now (i : Nat) (c : Ctx) : (d.setCtx i c).now = d.now := rfl
@[simp] theorem Dev.setCtx_freeNo (i : Nat) (c : Ctx) : (d.setCtx i c).freeNo = d.freeNo := rfl
@[simp] theorem Dev.setCtx_portA (i : Nat) (c : Ctx) : (d.setCtx i c).portA = d.portA := rfl
@[simp] theorem Dev.setCtx_portB (i : Nat) (c : Ctx) : (d.setCtx i c).portB = d.portB := rfl
@[simp] theorem Dev.setCtx_portC (i : Nat) (c : Ctx) : (d.setCtx i c).portC = d.portC := rfl
@[simp] theorem Dev.setCtx_pool (i : Nat) (c : Ctx) : (d.setCtx i c).pool = d.pool := rfl
@[simp] theorem Dev.setCtx_pool7 (i : Nat) (c : Ctx) : (d.setCtx i c).pool7 = d.pool7 := rfl
@[simp] theorem Dev.setCtx_disp (i : Nat) (c : Ctx) : (d.setCtx i c).disp = d.disp := rfl
@[simp] theorem Dev.setCtx_pol (i : Nat) (c : Ctx) : (d.setCtx i c).pol = d.pol := rfl
@[simp] theorem Dev.setCtx_irq (i : Nat) (c : Ctx) : (d.setCtx i c).irq = d.irq := rfl
@[simp] theorem Dev.setCtx_cal (i : Nat) (c : Ctx) : (d.setCtx i c).cal = d.cal := rfl
@[simp] theorem Dev.setCtx_evr (i : Nat) (c : Ctx) : (d.setCtx i c).evr = d.evr := rfl
@[simp] theorem Dev.setCtx_sws (i : Nat) (c : Ctx) : (d.setCtx i c).sws = d.sws := rfl
@[simp] theorem Dev.setCtx_pw (i : Nat) (c : Ctx) : (d.setCtx i c).pw = d.pw := rfl
@[simp] theorem Dev.setCtx_io (i : Nat) (c : Ctx) : (d.setCtx i c).io = d.io := rfl
@[simp] theorem Dev.setCtx_boot (i : Nat) (c : Ctx) : (d.setCtx i c).boot = d.boot := rfl
@[simp] theorem Dev.setCtx_adm (i : Nat) (c : Ctx) : (d.setCtx i c).adm = d.adm := rfl
@[simp] theorem Dev.setCtx_reg (i : Nat) (c : Ctx) (x : Nat) : (d.setCtx i c).reg x = d.reg x := rfl
@[simp] theorem Dev.setCtx_fld (i : Nat) (c : Ctx) (x : Nat) (g : Fld) : (d.setCtx i c).fld x g = d.fld x g := rfl
@[simp] theorem Dev.setCtx_flag (i : Nat) (c : Ctx) (x : Nat) (g : Fld) : (d.setCtx i c).flag x g = d.flag x g := by simp [Dev.flag]
@[simp] theorem Dev.setCtx_port (i : Nat) (c : Ctx) (x : PortId) : (d.setCtx i c).port x = d.port x := by cases x <;> rfl
@[simp] theorem Dev.setCtx_cmd (i : Nat) (c : Ctx) (x : Nat) : (d.setCtx i c).cmd x = d.cmd x := rfl
@[simp] theorem Dev.setCtx_sw (i : Nat) (c : Ctx) (x : Fin 16) : (d.setCtx i c).sw x = d.sw x := rfl
@[simp] theorem Dev.setCtx_src (i : Nat) (c : Ctx) (x : Nat) : (d.setCtx i c).src x = d.src x := rfl
@[simp] theorem Dev.setCtx_pathReg (i : Nat) (c : Ctx) (x : ReqPath) (y : Nat) : (d.setCtx i c).pathReg x y = d.pathReg x y := rfl

/-! ### updCtx -/

@[simp] theorem Dev.updCtx_regs (i : Nat) (f : Ctx → Ctx) : (d.updCtx i f).regs = d.regs := rfl
@[simp] theorem Dev.updCtx_prs (i : Nat) (f : Ctx → Ctx) : (d.updCtx i f).prs = d.prs := rfl
@[simp] theorem Dev.updCtx_now (i : Nat) (f : Ctx → Ctx) : (d.updCtx i f).now = d.now := rfl
@[simp] theorem Dev.updCtx_freeNo (i : Nat) (f : Ctx → Ctx) : (d.updCtx i f).freeNo = d.freeNo := rfl
@[simp] theorem Dev.updCtx_portA (i : Nat) (f : Ctx → Ctx) : (d.updCtx i f).portA = d.portA := rfl
@[simp] theorem Dev.updCtx_portB (i : Nat) (f : Ctx → Ctx) : (d.updCtx i f).portB = d.portB := rfl
@[simp] theorem Dev.updCtx_portC (i : Nat) (f : Ctx → Ctx) : (d.updCtx i f).portC = d.portC := rfl
@[simp] theorem Dev.updCtx_pool (i : Nat) (f : Ctx → Ctx) : (d.updCtx i f).pool = d.pool := rfl
@[simp] theorem Dev.updCtx_pool7 (i : Nat) (f : Ctx → Ctx) : (d.updCtx i f).pool7 = d.pool7 := rfl
@[simp] theorem Dev.updCtx_disp (i : Nat) (f : Ctx → Ctx) : (d.updCtx i f).disp = d.disp := rfl
@[simp] theorem Dev.updCtx_pol (i : Nat) (f : Ctx → Ctx) : (d.updCtx i f).pol = d.pol := rfl
@[simp] theorem Dev.updCtx_irq (i : Nat) (f : Ctx → Ctx) : (d.updCtx i f).irq = d.irq := rfl
@[simp] theorem Dev.updCtx_cal (i : Nat) (f : Ctx → Ctx) : (d.updCtx i f).cal = d.cal := rfl
@[simp] theorem Dev.updCtx_evr (i : Nat) (f : Ctx → Ctx) : (d.updCtx i f).evr = d.evr := rfl
@[simp] theorem Dev.updCtx_sws (i : Nat) (f : Ctx → Ctx) : (d.updCtx i f).sws = d.sws := rfl
@[simp] theorem Dev.updCtx_pw (i : Nat) (f : Ctx → Ctx) : (d.updCtx i f).pw = d.pw := rfl
@[simp] theorem Dev.updCtx_io (i : Nat) (f : Ctx → Ctx) : (d.updCtx i f).io = d.io := rfl
@[simp] theorem Dev.updCtx_boot (i : Nat) (f : Ctx → Ctx) : (d.updCtx i f).boot = d.boot := rfl
@[simp] theorem Dev.updCtx_adm (i : Nat) (f : Ctx → Ctx) : (d.updCtx i f).adm = d.adm := rfl
@[simp] theorem Dev.updCtx_reg (i : Nat) (f : Ctx → Ctx) (x : Nat) : (d.updCtx i f).reg x = d.reg x := rfl
@[simp] theorem Dev.updCtx_fld (i : Nat) (f : Ctx → Ctx) (x : Nat) (g : Fld) : (d.updCtx i f).fld x g = d.fld x g := rfl
@[simp] theorem Dev.updCtx_flag (i : Nat) (f : Ctx → Ctx) (x : Nat) (g : Fld) : (d.updCtx i f).flag x g = d.flag x g := by simp [Dev.flag]
@[simp] theorem Dev.updCtx_port (i : Nat) (f : Ctx → Ctx) (x : PortId) : (d.updCtx i f).port x = d.port x := by cases x <;> rfl
@[simp] theorem Dev.updCtx_cmd (i : Nat) (f : Ctx → Ctx) (x : Nat) : (d.updCtx i f).cmd x = d.cmd x := rfl
@[simp] theorem Dev.updCtx_sw (i : Nat) (f : Ctx → Ctx) (x : Fin 16) : (d.updCtx i f).sw x = d.sw x := rfl
@[simp] theorem Dev.updCtx_src (i : Nat) (f : Ctx → Ctx) (x : Nat) : (d.updCtx i f).src x = d.src x := rfl
@[simp] theorem Dev.updCtx_pathReg (i : Nat) (f : Ctx → Ctx) (x : ReqPath) (y : Nat) : (d.updCtx i f).pathReg x y = d.pathReg x y := rfl

/-! ### freeCtx -/

@[simp] theorem Dev.freeCtx_regs (i : Nat) : (d.freeCtx i).regs = d.regs := rfl
@[simp] theorem Dev.freeCtx_prs (i : Nat) : (d.freeCtx i).prs = d.prs := rfl
@[simp] theorem Dev.freeCtx_now (i : Nat) : (d.freeCtx i).now = d.now := rfl
@[simp] theorem Dev.freeCtx_freeNo (i : Nat) : (d.freeCtx i).freeNo = d.freeNo := rfl
@[simp] theorem Dev.freeCtx_portA (i : Nat) : (d.freeCtx i).portA = d.portA := rfl
@[simp] theorem Dev.freeCtx_portB (i : Nat) : (d.freeCtx i).portB = d.portB := rfl
@[simp] theorem Dev.freeCtx_portC (i : Nat) : (d.freeCtx i).portC = d.portC := rfl
@[simp] theorem Dev.freeCtx_pool (i : Nat) : (d.freeCtx i).pool = d.pool := rfl
@[simp] theorem Dev.freeCtx_pool7 (i : Nat) : (d.freeCtx i).pool7 = d.pool7 := rfl
@[simp] theorem Dev.freeCtx_disp (i : Nat) : (d.freeCtx i).disp = d.disp := rfl
@[simp] theorem Dev.freeCtx_pol (i : Nat) : (d.freeCtx i).pol = d.pol := rfl
@[simp] theorem Dev.freeCtx_irq (i : Nat) : (d.freeCtx i).irq = d.irq := rfl
@[simp] theorem Dev.freeCtx_cal (i : Nat) : (d.freeCtx i).cal = d.cal := rfl
@[simp] theorem Dev.freeCtx_evr (i : Nat) : (d.freeCtx i).evr = d.evr := rfl
@[simp] theorem Dev.freeCtx_sws (i : Nat) : (d.freeCtx i).sws = d.sws := rfl
@[simp] theorem Dev.freeCtx_pw (i : Nat) : (d.freeCtx i).pw = d.pw := rfl
@[simp] theorem Dev.freeCtx_io (i : Nat) : (d.freeCtx i).io = d.io := rfl
@[simp] theorem Dev.freeCtx_boot (i : Nat) : (d.freeCtx i).boot = d.boot := rfl
@[simp] theorem Dev.freeCtx_adm (i : Nat) : (d.freeCtx i).adm = d.adm := rfl
@[simp] theorem Dev.freeCtx_reg (i : Nat) (x : Nat) : (d.freeCtx i).reg x = d.reg x := rfl
@[simp] theorem Dev.freeCtx_fld (i : Nat) (x : Nat) (g : Fld) : (d.freeCtx i).fld x g = d.fld x g := rfl
@[simp] theorem Dev.freeCtx_flag (i : Nat) (x : Nat) (g : Fld) : (d.freeCtx i).flag x g = d.flag x g := by simp [Dev.flag]
@[simp] theorem Dev.freeCtx_port (i : Nat) (x : PortId) : (d.freeCtx i).port x = d.port x := by cases x <;> rfl
@[simp] theorem Dev.freeCtx_cmd (i : Nat) (x : Nat) : (d.freeCtx i).cmd x = d.cmd x := rfl
@[simp] theorem Dev.freeCtx_sw (i : Nat) (x : Fin 16) : (d.freeCtx i).sw x = d.sw x := rfl
@[simp] theorem Dev.freeCtx_src (i : Nat) (x : Nat) : (d.freeCtx i).src x = d.src x := rfl
@[simp] theorem Dev.freeCtx_pathReg (i : Nat) (x : ReqPath) (y : Nat) : (d.freeCtx i).pathReg x y = d.pathReg x y := rfl

/-! ### setSw -/

@[simp] theorem Dev.setSw_regs (n : Fin 16) (s : Swath) : (d.setSw n s).regs = d.regs := rfl
@[simp] theorem Dev.setSw_prs (n : Fin 16) (s : Swath) : (d.setSw n s).prs = d.prs := rfl
@[simp] theorem Dev.setSw_now (n : Fin 16) (s : Swath) : (d.setSw n s).now = d.now := rfl
@[simp] theorem Dev.setSw_freeNo (n : Fin 16) (s : Swath) : (d.setSw n s).freeNo = d.freeNo := rfl
@[simp] theorem Dev.setSw_portA (n : Fin 16) (s : Swath) : (d.setSw n s).portA = d.portA := rfl
@[simp] theorem Dev.setSw_portB (n : Fin 16) (s : Swath) : (d.setSw n s).portB = d.portB := rfl
@[simp] theorem Dev.setSw_portC (n : Fin 16) (s : Swath) : (d.setSw n s).portC = d.portC := rfl
@[simp] theorem Dev.setSw_pool (n : Fin 16) (s : Swath) : (d.setSw n s).pool = d.pool := rfl
@[simp] theorem Dev.setSw_pool7 (n : Fin 16) (s : Swath) : (d.setSw n s).pool7 = d.pool7 := rfl
@[simp] theorem Dev.setSw_ses (n : Fin 16) (s : Swath) : (d.setSw n s).ses = d.ses := rfl
@[simp] theorem Dev.setSw_disp (n : Fin 16) (s : Swath) : (d.setSw n s).disp = d.disp := rfl
@[simp] theorem Dev.setSw_pol (n : Fin 16) (s : Swath) : (d.setSw n s).pol = d.pol := rfl
@[simp] theorem Dev.setSw_irq (n : Fin 16) (s : Swath) : (d.setSw n s).irq = d.irq := rfl
@[simp] theorem Dev.setSw_cal (n : Fin 16) (s : Swath) : (d.setSw n s).cal = d.cal := rfl
@[simp] theorem Dev.setSw_evr (n : Fin 16) (s : Swath) : (d.setSw n s).evr = d.evr := rfl
@[simp] theorem Dev.setSw_pw (n : Fin 16) (s : Swath) : (d.setSw n s).pw = d.pw := rfl
@[simp] theorem Dev.setSw_io (n : Fin 16) (s : Swath) : (d.setSw n s).io = d.io := rfl
@[simp] theorem Dev.setSw_boot (n : Fin 16) (s : Swath) : (d.setSw n s).boot = d.boot := rfl
@[simp] theorem Dev.setSw_adm (n : Fin 16) (s : Swath) : (d.setSw n s).adm = d.adm := rfl
@[simp] theorem Dev.setSw_reg (n : Fin 16) (s : Swath) (x : Nat) : (d.setSw n s).reg x = d.reg x := rfl
@[simp] theorem Dev.setSw_fld (n : Fin 16) (s : Swath) (x : Nat) (g : Fld) : (d.setSw n s).fld x g = d.fld x g := rfl
@[simp] theorem Dev.setSw_flag (n : Fin 16) (s : Swath) (x : Nat) (g : Fld) : (d.setSw n s).flag x g = d.flag x g := by simp [Dev.flag]
@[simp] theorem Dev.setSw_port (n : Fin 16) (s : Swath) (x : PortId) : (d.setSw n s).port x = d.port x := by cases x <;> rfl
@[simp] theorem Dev.setSw_ctx (n : Fin 16) (s : Swath) (x : Nat) : (d.setSw n s).ctx x = d.ctx x := rfl
@[simp] theorem Dev.setSw_cmd (n : Fin 16) (s : Swath) (x : Nat) : (d.setSw n s).cmd x = d.cmd x := rfl
@[simp] theorem Dev.setSw_src (n : Fin 16) (s : Swath) (x : Nat) : (d.setSw n s).src x = d.src x := rfl
@[simp] theorem Dev.setSw_pathReg (n : Fin 16) (s : Swath) (x : ReqPath) (y : Nat) : (d.setSw n s).pathReg x y = d.pathReg x y := rfl

/-! ### updSw -/

@[simp] theorem Dev.updSw_regs (n : Fin 16) (f : Swath → Swath) : (d.updSw n f).regs = d.regs := rfl
@[simp] theorem Dev.updSw_prs (n : Fin 16) (f : Swath → Swath) : (d.updSw n f).prs = d.prs := rfl
@[simp] theorem Dev.updSw_now (n : Fin 16) (f : Swath → Swath) : (d.updSw n f).now = d.now := rfl
@[simp] theorem Dev.updSw_freeNo (n : Fin 16) (f : Swath → Swath) : (d.updSw n f).freeNo = d.freeNo := rfl
@[simp] theorem Dev.updSw_portA (n : Fin 16) (f : Swath → Swath) : (d.updSw n f).portA = d.portA := rfl
@[simp] theorem Dev.updSw_portB (n : Fin 16) (f : Swath → Swath) : (d.updSw n f).portB = d.portB := rfl
@[simp] theorem Dev.updSw_portC (n : Fin 16) (f : Swath → Swath) : (d.updSw n f).portC = d.portC := rfl
@[simp] theorem Dev.updSw_pool (n : Fin 16) (f : Swath → Swath) : (d.updSw n f).pool = d.pool := rfl
@[simp] theorem Dev.updSw_pool7 (n : Fin 16) (f : Swath → Swath) : (d.updSw n f).pool7 = d.pool7 := rfl
@[simp] theorem Dev.updSw_ses (n : Fin 16) (f : Swath → Swath) : (d.updSw n f).ses = d.ses := rfl
@[simp] theorem Dev.updSw_disp (n : Fin 16) (f : Swath → Swath) : (d.updSw n f).disp = d.disp := rfl
@[simp] theorem Dev.updSw_pol (n : Fin 16) (f : Swath → Swath) : (d.updSw n f).pol = d.pol := rfl
@[simp] theorem Dev.updSw_irq (n : Fin 16) (f : Swath → Swath) : (d.updSw n f).irq = d.irq := rfl
@[simp] theorem Dev.updSw_cal (n : Fin 16) (f : Swath → Swath) : (d.updSw n f).cal = d.cal := rfl
@[simp] theorem Dev.updSw_evr (n : Fin 16) (f : Swath → Swath) : (d.updSw n f).evr = d.evr := rfl
@[simp] theorem Dev.updSw_pw (n : Fin 16) (f : Swath → Swath) : (d.updSw n f).pw = d.pw := rfl
@[simp] theorem Dev.updSw_io (n : Fin 16) (f : Swath → Swath) : (d.updSw n f).io = d.io := rfl
@[simp] theorem Dev.updSw_boot (n : Fin 16) (f : Swath → Swath) : (d.updSw n f).boot = d.boot := rfl
@[simp] theorem Dev.updSw_adm (n : Fin 16) (f : Swath → Swath) : (d.updSw n f).adm = d.adm := rfl
@[simp] theorem Dev.updSw_reg (n : Fin 16) (f : Swath → Swath) (x : Nat) : (d.updSw n f).reg x = d.reg x := rfl
@[simp] theorem Dev.updSw_fld (n : Fin 16) (f : Swath → Swath) (x : Nat) (g : Fld) : (d.updSw n f).fld x g = d.fld x g := rfl
@[simp] theorem Dev.updSw_flag (n : Fin 16) (f : Swath → Swath) (x : Nat) (g : Fld) : (d.updSw n f).flag x g = d.flag x g := by simp [Dev.flag]
@[simp] theorem Dev.updSw_port (n : Fin 16) (f : Swath → Swath) (x : PortId) : (d.updSw n f).port x = d.port x := by cases x <;> rfl
@[simp] theorem Dev.updSw_ctx (n : Fin 16) (f : Swath → Swath) (x : Nat) : (d.updSw n f).ctx x = d.ctx x := rfl
@[simp] theorem Dev.updSw_cmd (n : Fin 16) (f : Swath → Swath) (x : Nat) : (d.updSw n f).cmd x = d.cmd x := rfl
@[simp] theorem Dev.updSw_src (n : Fin 16) (f : Swath → Swath) (x : Nat) : (d.updSw n f).src x = d.src x := rfl
@[simp] theorem Dev.updSw_pathReg (n : Fin 16) (f : Swath → Swath) (x : ReqPath) (y : Nat) : (d.updSw n f).pathReg x y = d.pathReg x y := rfl

/-! ### setSrc -/

@[simp] theorem Dev.setSrc_regs (k : Nat) (s : IrqSrc) : (d.setSrc k s).regs = d.regs := rfl
@[simp] theorem Dev.setSrc_prs (k : Nat) (s : IrqSrc) : (d.setSrc k s).prs = d.prs := rfl
@[simp] theorem Dev.setSrc_now (k : Nat) (s : IrqSrc) : (d.setSrc k s).now = d.now := rfl
@[simp] theorem Dev.setSrc_freeNo (k : Nat) (s : IrqSrc) : (d.setSrc k s).freeNo = d.freeNo := rfl
@[simp] theorem Dev.setSrc_portA (k : Nat) (s : IrqSrc) : (d.setSrc k s).portA = d.portA := rfl
@[simp] theorem Dev.setSrc_portB (k : Nat) (s : IrqSrc) : (d.setSrc k s).portB = d.portB := rfl
@[simp] theorem Dev.setSrc_portC (k : Nat) (s : IrqSrc) : (d.setSrc k s).portC = d.portC := rfl
@[simp] theorem Dev.setSrc_pool (k : Nat) (s : IrqSrc) : (d.setSrc k s).pool = d.pool := rfl
@[simp] theorem Dev.setSrc_pool7 (k : Nat) (s : IrqSrc) : (d.setSrc k s).pool7 = d.pool7 := rfl
@[simp] theorem Dev.setSrc_ses (k : Nat) (s : IrqSrc) : (d.setSrc k s).ses = d.ses := rfl
@[simp] theorem Dev.setSrc_disp (k : Nat) (s : IrqSrc) : (d.setSrc k s).disp = d.disp := rfl
@[simp] theorem Dev.setSrc_pol (k : Nat) (s : IrqSrc) : (d.setSrc k s).pol = d.pol := rfl
@[simp] theorem Dev.setSrc_cal (k : Nat) (s : IrqSrc) : (d.setSrc k s).cal = d.cal := rfl
@[simp] theorem Dev.setSrc_evr (k : Nat) (s : IrqSrc) : (d.setSrc k s).evr = d.evr := rfl
@[simp] theorem Dev.setSrc_sws (k : Nat) (s : IrqSrc) : (d.setSrc k s).sws = d.sws := rfl
@[simp] theorem Dev.setSrc_pw (k : Nat) (s : IrqSrc) : (d.setSrc k s).pw = d.pw := rfl
@[simp] theorem Dev.setSrc_io (k : Nat) (s : IrqSrc) : (d.setSrc k s).io = d.io := rfl
@[simp] theorem Dev.setSrc_boot (k : Nat) (s : IrqSrc) : (d.setSrc k s).boot = d.boot := rfl
@[simp] theorem Dev.setSrc_adm (k : Nat) (s : IrqSrc) : (d.setSrc k s).adm = d.adm := rfl
@[simp] theorem Dev.setSrc_reg (k : Nat) (s : IrqSrc) (x : Nat) : (d.setSrc k s).reg x = d.reg x := rfl
@[simp] theorem Dev.setSrc_fld (k : Nat) (s : IrqSrc) (x : Nat) (g : Fld) : (d.setSrc k s).fld x g = d.fld x g := rfl
@[simp] theorem Dev.setSrc_flag (k : Nat) (s : IrqSrc) (x : Nat) (g : Fld) : (d.setSrc k s).flag x g = d.flag x g := by simp [Dev.flag]
@[simp] theorem Dev.setSrc_port (k : Nat) (s : IrqSrc) (x : PortId) : (d.setSrc k s).port x = d.port x := by cases x <;> rfl
@[simp] theorem Dev.setSrc_ctx (k : Nat) (s : IrqSrc) (x : Nat) : (d.setSrc k s).ctx x = d.ctx x := rfl
@[simp] theorem Dev.setSrc_cmd (k : Nat) (s : IrqSrc) (x : Nat) : (d.setSrc k s).cmd x = d.cmd x := rfl
@[simp] theorem Dev.setSrc_sw (k : Nat) (s : IrqSrc) (x : Fin 16) : (d.setSrc k s).sw x = d.sw x := rfl
@[simp] theorem Dev.setSrc_pathReg (k : Nat) (s : IrqSrc) (x : ReqPath) (y : Nat) : (d.setSrc k s).pathReg x y = d.pathReg x y := rfl

/-! ### raise -/

@[simp] theorem Dev.raise_regs (k : Nat) : (d.raise k).regs = d.regs := rfl
@[simp] theorem Dev.raise_prs (k : Nat) : (d.raise k).prs = d.prs := rfl
@[simp] theorem Dev.raise_now (k : Nat) : (d.raise k).now = d.now := rfl
@[simp] theorem Dev.raise_freeNo (k : Nat) : (d.raise k).freeNo = d.freeNo := rfl
@[simp] theorem Dev.raise_portA (k : Nat) : (d.raise k).portA = d.portA := rfl
@[simp] theorem Dev.raise_portB (k : Nat) : (d.raise k).portB = d.portB := rfl
@[simp] theorem Dev.raise_portC (k : Nat) : (d.raise k).portC = d.portC := rfl
@[simp] theorem Dev.raise_pool (k : Nat) : (d.raise k).pool = d.pool := rfl
@[simp] theorem Dev.raise_pool7 (k : Nat) : (d.raise k).pool7 = d.pool7 := rfl
@[simp] theorem Dev.raise_ses (k : Nat) : (d.raise k).ses = d.ses := rfl
@[simp] theorem Dev.raise_disp (k : Nat) : (d.raise k).disp = d.disp := rfl
@[simp] theorem Dev.raise_pol (k : Nat) : (d.raise k).pol = d.pol := rfl
@[simp] theorem Dev.raise_cal (k : Nat) : (d.raise k).cal = d.cal := rfl
@[simp] theorem Dev.raise_evr (k : Nat) : (d.raise k).evr = d.evr := rfl
@[simp] theorem Dev.raise_sws (k : Nat) : (d.raise k).sws = d.sws := rfl
@[simp] theorem Dev.raise_pw (k : Nat) : (d.raise k).pw = d.pw := rfl
@[simp] theorem Dev.raise_io (k : Nat) : (d.raise k).io = d.io := rfl
@[simp] theorem Dev.raise_boot (k : Nat) : (d.raise k).boot = d.boot := rfl
@[simp] theorem Dev.raise_adm (k : Nat) : (d.raise k).adm = d.adm := rfl
@[simp] theorem Dev.raise_reg (k : Nat) (x : Nat) : (d.raise k).reg x = d.reg x := rfl
@[simp] theorem Dev.raise_fld (k : Nat) (x : Nat) (g : Fld) : (d.raise k).fld x g = d.fld x g := rfl
@[simp] theorem Dev.raise_flag (k : Nat) (x : Nat) (g : Fld) : (d.raise k).flag x g = d.flag x g := by simp [Dev.flag]
@[simp] theorem Dev.raise_port (k : Nat) (x : PortId) : (d.raise k).port x = d.port x := by cases x <;> rfl
@[simp] theorem Dev.raise_ctx (k : Nat) (x : Nat) : (d.raise k).ctx x = d.ctx x := rfl
@[simp] theorem Dev.raise_cmd (k : Nat) (x : Nat) : (d.raise k).cmd x = d.cmd x := rfl
@[simp] theorem Dev.raise_sw (k : Nat) (x : Fin 16) : (d.raise k).sw x = d.sw x := rfl
@[simp] theorem Dev.raise_pathReg (k : Nat) (x : ReqPath) (y : Nat) : (d.raise k).pathReg x y = d.pathReg x y := rfl

/-! ### condRose -/

@[simp] theorem Dev.condRose_regs (k : Nat) : (d.condRose k).regs = d.regs := rfl
@[simp] theorem Dev.condRose_prs (k : Nat) : (d.condRose k).prs = d.prs := rfl
@[simp] theorem Dev.condRose_now (k : Nat) : (d.condRose k).now = d.now := rfl
@[simp] theorem Dev.condRose_freeNo (k : Nat) : (d.condRose k).freeNo = d.freeNo := rfl
@[simp] theorem Dev.condRose_portA (k : Nat) : (d.condRose k).portA = d.portA := rfl
@[simp] theorem Dev.condRose_portB (k : Nat) : (d.condRose k).portB = d.portB := rfl
@[simp] theorem Dev.condRose_portC (k : Nat) : (d.condRose k).portC = d.portC := rfl
@[simp] theorem Dev.condRose_pool (k : Nat) : (d.condRose k).pool = d.pool := rfl
@[simp] theorem Dev.condRose_pool7 (k : Nat) : (d.condRose k).pool7 = d.pool7 := rfl
@[simp] theorem Dev.condRose_ses (k : Nat) : (d.condRose k).ses = d.ses := rfl
@[simp] theorem Dev.condRose_disp (k : Nat) : (d.condRose k).disp = d.disp := rfl
@[simp] theorem Dev.condRose_pol (k : Nat) : (d.condRose k).pol = d.pol := rfl
@[simp] theorem Dev.condRose_cal (k : Nat) : (d.condRose k).cal = d.cal := rfl
@[simp] theorem Dev.condRose_evr (k : Nat) : (d.condRose k).evr = d.evr := rfl
@[simp] theorem Dev.condRose_sws (k : Nat) : (d.condRose k).sws = d.sws := rfl
@[simp] theorem Dev.condRose_pw (k : Nat) : (d.condRose k).pw = d.pw := rfl
@[simp] theorem Dev.condRose_io (k : Nat) : (d.condRose k).io = d.io := rfl
@[simp] theorem Dev.condRose_boot (k : Nat) : (d.condRose k).boot = d.boot := rfl
@[simp] theorem Dev.condRose_adm (k : Nat) : (d.condRose k).adm = d.adm := rfl
@[simp] theorem Dev.condRose_reg (k : Nat) (x : Nat) : (d.condRose k).reg x = d.reg x := rfl
@[simp] theorem Dev.condRose_fld (k : Nat) (x : Nat) (g : Fld) : (d.condRose k).fld x g = d.fld x g := rfl
@[simp] theorem Dev.condRose_flag (k : Nat) (x : Nat) (g : Fld) : (d.condRose k).flag x g = d.flag x g := by simp [Dev.flag]
@[simp] theorem Dev.condRose_port (k : Nat) (x : PortId) : (d.condRose k).port x = d.port x := by cases x <;> rfl
@[simp] theorem Dev.condRose_ctx (k : Nat) (x : Nat) : (d.condRose k).ctx x = d.ctx x := rfl
@[simp] theorem Dev.condRose_cmd (k : Nat) (x : Nat) : (d.condRose k).cmd x = d.cmd x := rfl
@[simp] theorem Dev.condRose_sw (k : Nat) (x : Fin 16) : (d.condRose k).sw x = d.sw x := rfl
@[simp] theorem Dev.condRose_pathReg (k : Nat) (x : ReqPath) (y : Nat) : (d.condRose k).pathReg x y = d.pathReg x y := rfl

/-! ### pulse -/

@[simp] theorem Dev.pulse_regs (k : Nat) : (d.pulse k).regs = d.regs := rfl
@[simp] theorem Dev.pulse_prs (k : Nat) : (d.pulse k).prs = d.prs := rfl
@[simp] theorem Dev.pulse_now (k : Nat) : (d.pulse k).now = d.now := rfl
@[simp] theorem Dev.pulse_freeNo (k : Nat) : (d.pulse k).freeNo = d.freeNo := rfl
@[simp] theorem Dev.pulse_portA (k : Nat) : (d.pulse k).portA = d.portA := rfl
@[simp] theorem Dev.pulse_portB (k : Nat) : (d.pulse k).portB = d.portB := rfl
@[simp] theorem Dev.pulse_portC (k : Nat) : (d.pulse k).portC = d.portC := rfl
@[simp] theorem Dev.pulse_pool (k : Nat) : (d.pulse k).pool = d.pool := rfl
@[simp] theorem Dev.pulse_pool7 (k : Nat) : (d.pulse k).pool7 = d.pool7 := rfl
@[simp] theorem Dev.pulse_ses (k : Nat) : (d.pulse k).ses = d.ses := rfl
@[simp] theorem Dev.pulse_disp (k : Nat) : (d.pulse k).disp = d.disp := rfl
@[simp] theorem Dev.pulse_pol (k : Nat) : (d.pulse k).pol = d.pol := rfl
@[simp] theorem Dev.pulse_cal (k : Nat) : (d.pulse k).cal = d.cal := rfl
@[simp] theorem Dev.pulse_evr (k : Nat) : (d.pulse k).evr = d.evr := rfl
@[simp] theorem Dev.pulse_sws (k : Nat) : (d.pulse k).sws = d.sws := rfl
@[simp] theorem Dev.pulse_pw (k : Nat) : (d.pulse k).pw = d.pw := rfl
@[simp] theorem Dev.pulse_io (k : Nat) : (d.pulse k).io = d.io := rfl
@[simp] theorem Dev.pulse_boot (k : Nat) : (d.pulse k).boot = d.boot := rfl
@[simp] theorem Dev.pulse_adm (k : Nat) : (d.pulse k).adm = d.adm := rfl
@[simp] theorem Dev.pulse_reg (k : Nat) (x : Nat) : (d.pulse k).reg x = d.reg x := rfl
@[simp] theorem Dev.pulse_fld (k : Nat) (x : Nat) (g : Fld) : (d.pulse k).fld x g = d.fld x g := rfl
@[simp] theorem Dev.pulse_flag (k : Nat) (x : Nat) (g : Fld) : (d.pulse k).flag x g = d.flag x g := by simp [Dev.flag]
@[simp] theorem Dev.pulse_port (k : Nat) (x : PortId) : (d.pulse k).port x = d.port x := by cases x <;> rfl
@[simp] theorem Dev.pulse_ctx (k : Nat) (x : Nat) : (d.pulse k).ctx x = d.ctx x := rfl
@[simp] theorem Dev.pulse_cmd (k : Nat) (x : Nat) : (d.pulse k).cmd x = d.cmd x := rfl
@[simp] theorem Dev.pulse_sw (k : Nat) (x : Fin 16) : (d.pulse k).sw x = d.sw x := rfl
@[simp] theorem Dev.pulse_pathReg (k : Nat) (x : ReqPath) (y : Nat) : (d.pulse k).pathReg x y = d.pathReg x y := rfl

/-! ### completeSrc -/

@[simp] theorem Dev.completeSrc_regs (k : Nat) : (d.completeSrc k).regs = d.regs := rfl
@[simp] theorem Dev.completeSrc_prs (k : Nat) : (d.completeSrc k).prs = d.prs := rfl
@[simp] theorem Dev.completeSrc_now (k : Nat) : (d.completeSrc k).now = d.now := rfl
@[simp] theorem Dev.completeSrc_freeNo (k : Nat) : (d.completeSrc k).freeNo = d.freeNo := rfl
@[simp] theorem Dev.completeSrc_portA (k : Nat) : (d.completeSrc k).portA = d.portA := rfl
@[simp] theorem Dev.completeSrc_portB (k : Nat) : (d.completeSrc k).portB = d.portB := rfl
@[simp] theorem Dev.completeSrc_portC (k : Nat) : (d.completeSrc k).portC = d.portC := rfl
@[simp] theorem Dev.completeSrc_pool (k : Nat) : (d.completeSrc k).pool = d.pool := rfl
@[simp] theorem Dev.completeSrc_pool7 (k : Nat) : (d.completeSrc k).pool7 = d.pool7 := rfl
@[simp] theorem Dev.completeSrc_ses (k : Nat) : (d.completeSrc k).ses = d.ses := rfl
@[simp] theorem Dev.completeSrc_disp (k : Nat) : (d.completeSrc k).disp = d.disp := rfl
@[simp] theorem Dev.completeSrc_pol (k : Nat) : (d.completeSrc k).pol = d.pol := rfl
@[simp] theorem Dev.completeSrc_cal (k : Nat) : (d.completeSrc k).cal = d.cal := rfl
@[simp] theorem Dev.completeSrc_evr (k : Nat) : (d.completeSrc k).evr = d.evr := rfl
@[simp] theorem Dev.completeSrc_sws (k : Nat) : (d.completeSrc k).sws = d.sws := rfl
@[simp] theorem Dev.completeSrc_pw (k : Nat) : (d.completeSrc k).pw = d.pw := rfl
@[simp] theorem Dev.completeSrc_io (k : Nat) : (d.completeSrc k).io = d.io := rfl
@[simp] theorem Dev.completeSrc_boot (k : Nat) : (d.completeSrc k).boot = d.boot := rfl
@[simp] theorem Dev.completeSrc_adm (k : Nat) : (d.completeSrc k).adm = d.adm := rfl
@[simp] theorem Dev.completeSrc_reg (k : Nat) (x : Nat) : (d.completeSrc k).reg x = d.reg x := rfl
@[simp] theorem Dev.completeSrc_fld (k : Nat) (x : Nat) (g : Fld) : (d.completeSrc k).fld x g = d.fld x g := rfl
@[simp] theorem Dev.completeSrc_flag (k : Nat) (x : Nat) (g : Fld) : (d.completeSrc k).flag x g = d.flag x g := by simp [Dev.flag]
@[simp] theorem Dev.completeSrc_port (k : Nat) (x : PortId) : (d.completeSrc k).port x = d.port x := by cases x <;> rfl
@[simp] theorem Dev.completeSrc_ctx (k : Nat) (x : Nat) : (d.completeSrc k).ctx x = d.ctx x := rfl
@[simp] theorem Dev.completeSrc_cmd (k : Nat) (x : Nat) : (d.completeSrc k).cmd x = d.cmd x := rfl
@[simp] theorem Dev.completeSrc_sw (k : Nat) (x : Fin 16) : (d.completeSrc k).sw x = d.sw x := rfl
@[simp] theorem Dev.completeSrc_pathReg (k : Nat) (x : ReqPath) (y : Nat) : (d.completeSrc k).pathReg x y = d.pathReg x y := rfl

/-! ### setCond -/

@[simp] theorem Dev.setCond_prs (b : Nat) (f : Fld) (v k : Nat) : (d.setCond b f v k).prs = d.prs := by unfold Dev.setCond; simp only; split <;> rfl
@[simp] theorem Dev.setCond_now (b : Nat) (f : Fld) (v k : Nat) : (d.setCond b f v k).now = d.now := by unfold Dev.setCond; simp only; split <;> rfl
@[simp] theorem Dev.setCond_freeNo (b : Nat) (f : Fld) (v k : Nat) : (d.setCond b f v k).freeNo = d.freeNo := by unfold Dev.setCond; simp only; split <;> rfl
@[simp] theorem Dev.setCond_portA (b : Nat) (f : Fld) (v k : Nat) : (d.setCond b f v k).portA = d.portA := by unfold Dev.setCond; simp only; split <;> rfl
@[simp] theorem Dev.setCond_portB (b : Nat) (f : Fld) (v k : Nat) : (d.setCond b f v k).portB = d.portB := by unfold Dev.setCond; simp only; split <;> rfl
@[simp] theorem Dev.setCond_portC (b : Nat) (f : Fld) (v k : Nat) : (d.setCond b f v k).portC = d.portC := by unfold Dev.setCond; simp only; split <;> rfl
@[simp] theorem Dev.setCond_pool (b : Nat) (f : Fld) (v k : Nat) : (d.setCond b f v k).pool = d.pool := by unfold Dev.setCond; simp only; split <;> rfl
@[simp] theorem Dev.setCond_pool7 (b : Nat) (f : Fld) (v k : Nat) : (d.setCond b f v k).pool7 = d.pool7 := by unfold Dev.setCond; simp only; split <;> rfl
@[simp] theorem Dev.setCond_ses (b : Nat) (f : Fld) (v k : Nat) : (d.setCond b f v k).ses = d.ses := by unfold Dev.setCond; simp only; split <;> rfl
@[simp] theorem Dev.setCond_disp (b : Nat) (f : Fld) (v k : Nat) : (d.setCond b f v k).disp = d.disp := by unfold Dev.setCond; simp only; split <;> rfl
@[simp] theorem Dev.setCond_pol (b : Nat) (f : Fld) (v k : Nat) : (d.setCond b f v k).pol = d.pol := by unfold Dev.setCond; simp only; split <;> rfl
@[simp] theorem Dev.setCond_cal (b : Nat) (f : Fld) (v k : Nat) : (d.setCond b f v k).cal = d.cal := by unfold Dev.setCond; simp only; split <;> rfl
@[simp] theorem Dev.setCond_evr (b : Nat) (f : Fld) (v k : Nat) : (d.setCond b f v k).evr = d.evr := by unfold Dev.setCond; simp only; split <;> rfl
@[simp] theorem Dev.setCond_sws (b : Nat) (f : Fld) (v k : Nat) : (d.setCond b f v k).sws = d.sws := by unfold Dev.setCond; simp only; split <;> rfl
@[simp] theorem Dev.setCond_pw (b : Nat) (f : Fld) (v k : Nat) : (d.setCond b f v k).pw = d.pw := by unfold Dev.setCond; simp only; split <;> rfl
@[simp] theorem Dev.setCond_io (b : Nat) (f : Fld) (v k : Nat) : (d.setCond b f v k).io = d.io := by unfold Dev.setCond; simp only; split <;> rfl
@[simp] theorem Dev.setCond_boot (b : Nat) (f : Fld) (v k : Nat) : (d.setCond b f v k).boot = d.boot := by unfold Dev.setCond; simp only; split <;> rfl
@[simp] theorem Dev.setCond_adm (b : Nat) (f : Fld) (v k : Nat) : (d.setCond b f v k).adm = d.adm := by unfold Dev.setCond; simp only; split <;> rfl
@[simp] theorem Dev.setCond_port (b : Nat) (f : Fld) (v k : Nat) (x : PortId) : (d.setCond b f v k).port x = d.port x := by cases x <;> simp [Dev.port]
@[simp] theorem Dev.setCond_ctx (b : Nat) (f : Fld) (v k : Nat) (x : Nat) : (d.setCond b f v k).ctx x = d.ctx x := by unfold Dev.setCond; simp only; split <;> rfl
@[simp] theorem Dev.setCond_cmd (b : Nat) (f : Fld) (v k : Nat) (x : Nat) : (d.setCond b f v k).cmd x = d.cmd x := by unfold Dev.setCond; simp only; split <;> rfl
@[simp] theorem Dev.setCond_sw (b : Nat) (f : Fld) (v k : Nat) (x : Fin 16) : (d.setCond b f v k).sw x = d.sw x := by unfold Dev.setCond; simp only; split <;> rfl
@[simp] theorem Dev.setCond_pathReg (b : Nat) (f : Fld) (v k : Nat) (x : ReqPath) (y : Nat) : (d.setCond b f v k).pathReg x y = d.pathReg x y := by unfold Dev.setCond; simp only; split <;> rfl

/-! ### loseEvent -/

@[simp] theorem Dev.loseEvent_prs : (d.loseEvent).prs = d.prs := rfl
@[simp] theorem Dev.loseEvent_now : (d.loseEvent).now = d.now := rfl
@[simp] theorem Dev.loseEvent_freeNo : (d.loseEvent).freeNo = d.freeNo := rfl
@[simp] theorem Dev.loseEvent_portA : (d.loseEvent).portA = d.portA := rfl
@[simp] theorem Dev.loseEvent_portB : (d.loseEvent).portB = d.portB := rfl
@[simp] theorem Dev.loseEvent_portC : (d.loseEvent).portC = d.portC := rfl
@[simp] theorem Dev.loseEvent_pool : (d.loseEvent).pool = d.pool := rfl
@[simp] theorem Dev.loseEvent_pool7 : (d.loseEvent).pool7 = d.pool7 := rfl
@[simp] theorem Dev.loseEvent_ses : (d.loseEvent).ses = d.ses := rfl
@[simp] theorem Dev.loseEvent_disp : (d.loseEvent).disp = d.disp := rfl
@[simp] theorem Dev.loseEvent_pol : (d.loseEvent).pol = d.pol := rfl
@[simp] theorem Dev.loseEvent_irq : (d.loseEvent).irq = d.irq := rfl
@[simp] theorem Dev.loseEvent_cal : (d.loseEvent).cal = d.cal := rfl
@[simp] theorem Dev.loseEvent_sws : (d.loseEvent).sws = d.sws := rfl
@[simp] theorem Dev.loseEvent_pw : (d.loseEvent).pw = d.pw := rfl
@[simp] theorem Dev.loseEvent_io : (d.loseEvent).io = d.io := rfl
@[simp] theorem Dev.loseEvent_boot : (d.loseEvent).boot = d.boot := rfl
@[simp] theorem Dev.loseEvent_adm : (d.loseEvent).adm = d.adm := rfl
@[simp] theorem Dev.loseEvent_port (x : PortId) : (d.loseEvent).port x = d.port x := by cases x <;> rfl
@[simp] theorem Dev.loseEvent_ctx (x : Nat) : (d.loseEvent).ctx x = d.ctx x := rfl
@[simp] theorem Dev.loseEvent_cmd (x : Nat) : (d.loseEvent).cmd x = d.cmd x := rfl
@[simp] theorem Dev.loseEvent_sw (x : Fin 16) : (d.loseEvent).sw x = d.sw x := rfl
@[simp] theorem Dev.loseEvent_src (x : Nat) : (d.loseEvent).src x = d.src x := rfl
@[simp] theorem Dev.loseEvent_pathReg (x : ReqPath) (y : Nat) : (d.loseEvent).pathReg x y = d.pathReg x y := rfl

/-! ### report -/

@[simp] theorem Dev.report_prs (c u s v w : Nat) : (d.report c u s v w).prs = d.prs := by unfold Dev.report; split <;> rfl
@[simp] theorem Dev.report_now (c u s v w : Nat) : (d.report c u s v w).now = d.now := by unfold Dev.report; split <;> rfl
@[simp] theorem Dev.report_freeNo (c u s v w : Nat) : (d.report c u s v w).freeNo = d.freeNo := by unfold Dev.report; split <;> rfl
@[simp] theorem Dev.report_portA (c u s v w : Nat) : (d.report c u s v w).portA = d.portA := by unfold Dev.report; split <;> rfl
@[simp] theorem Dev.report_portB (c u s v w : Nat) : (d.report c u s v w).portB = d.portB := by unfold Dev.report; split <;> rfl
@[simp] theorem Dev.report_portC (c u s v w : Nat) : (d.report c u s v w).portC = d.portC := by unfold Dev.report; split <;> rfl
@[simp] theorem Dev.report_pool (c u s v w : Nat) : (d.report c u s v w).pool = d.pool := by unfold Dev.report; split <;> rfl
@[simp] theorem Dev.report_pool7 (c u s v w : Nat) : (d.report c u s v w).pool7 = d.pool7 := by unfold Dev.report; split <;> rfl
@[simp] theorem Dev.report_ses (c u s v w : Nat) : (d.report c u s v w).ses = d.ses := by unfold Dev.report; split <;> rfl
@[simp] theorem Dev.report_disp (c u s v w : Nat) : (d.report c u s v w).disp = d.disp := by unfold Dev.report; split <;> rfl
@[simp] theorem Dev.report_pol (c u s v w : Nat) : (d.report c u s v w).pol = d.pol := by unfold Dev.report; split <;> rfl
@[simp] theorem Dev.report_irq (c u s v w : Nat) : (d.report c u s v w).irq = d.irq := by unfold Dev.report; split <;> rfl
@[simp] theorem Dev.report_cal (c u s v w : Nat) : (d.report c u s v w).cal = d.cal := by unfold Dev.report; split <;> rfl
@[simp] theorem Dev.report_sws (c u s v w : Nat) : (d.report c u s v w).sws = d.sws := by unfold Dev.report; split <;> rfl
@[simp] theorem Dev.report_pw (c u s v w : Nat) : (d.report c u s v w).pw = d.pw := by unfold Dev.report; split <;> rfl
@[simp] theorem Dev.report_io (c u s v w : Nat) : (d.report c u s v w).io = d.io := by unfold Dev.report; split <;> rfl
@[simp] theorem Dev.report_boot (c u s v w : Nat) : (d.report c u s v w).boot = d.boot := by unfold Dev.report; split <;> rfl
@[simp] theorem Dev.report_adm (c u s v w : Nat) : (d.report c u s v w).adm = d.adm := by unfold Dev.report; split <;> rfl
@[simp] theorem Dev.report_port (c u s v w : Nat) (x : PortId) : (d.report c u s v w).port x = d.port x := by cases x <;> simp [Dev.port]
@[simp] theorem Dev.report_ctx (c u s v w : Nat) (x : Nat) : (d.report c u s v w).ctx x = d.ctx x := by unfold Dev.report; split <;> rfl
@[simp] theorem Dev.report_cmd (c u s v w : Nat) (x : Nat) : (d.report c u s v w).cmd x = d.cmd x := by unfold Dev.report; split <;> rfl
@[simp] theorem Dev.report_sw (c u s v w : Nat) (x : Fin 16) : (d.report c u s v w).sw x = d.sw x := by unfold Dev.report; split <;> rfl
@[simp] theorem Dev.report_src (c u s v w : Nat) (x : Nat) : (d.report c u s v w).src x = d.src x := by unfold Dev.report; split <;> rfl
@[simp] theorem Dev.report_pathReg (c u s v w : Nat) (x : ReqPath) (y : Nat) : (d.report c u s v w).pathReg x y = d.pathReg x y := by unfold Dev.report; split <;> rfl

/-! ### setTrust -/

@[simp] theorem Dev.setTrust_prs (t : Nat) : (d.setTrust t).prs = d.prs := by unfold Dev.setTrust; simp only; split <;> simp
@[simp] theorem Dev.setTrust_now (t : Nat) : (d.setTrust t).now = d.now := by unfold Dev.setTrust; simp only; split <;> simp
@[simp] theorem Dev.setTrust_freeNo (t : Nat) : (d.setTrust t).freeNo = d.freeNo := by unfold Dev.setTrust; simp only; split <;> simp
@[simp] theorem Dev.setTrust_portA (t : Nat) : (d.setTrust t).portA = d.portA := by unfold Dev.setTrust; simp only; split <;> simp
@[simp] theorem Dev.setTrust_portB (t : Nat) : (d.setTrust t).portB = d.portB := by unfold Dev.setTrust; simp only; split <;> simp
@[simp] theorem Dev.setTrust_portC (t : Nat) : (d.setTrust t).portC = d.portC := by unfold Dev.setTrust; simp only; split <;> simp
@[simp] theorem Dev.setTrust_pool (t : Nat) : (d.setTrust t).pool = d.pool := by unfold Dev.setTrust; simp only; split <;> simp
@[simp] theorem Dev.setTrust_pool7 (t : Nat) : (d.setTrust t).pool7 = d.pool7 := by unfold Dev.setTrust; simp only; split <;> simp
@[simp] theorem Dev.setTrust_ses (t : Nat) : (d.setTrust t).ses = d.ses := by unfold Dev.setTrust; simp only; split <;> simp
@[simp] theorem Dev.setTrust_disp (t : Nat) : (d.setTrust t).disp = d.disp := by unfold Dev.setTrust; simp only; split <;> simp
@[simp] theorem Dev.setTrust_pol (t : Nat) : (d.setTrust t).pol = d.pol := by unfold Dev.setTrust; simp only; split <;> simp
@[simp] theorem Dev.setTrust_cal (t : Nat) : (d.setTrust t).cal = d.cal := by unfold Dev.setTrust; simp only; split <;> simp
@[simp] theorem Dev.setTrust_sws (t : Nat) : (d.setTrust t).sws = d.sws := by unfold Dev.setTrust; simp only; split <;> simp
@[simp] theorem Dev.setTrust_pw (t : Nat) : (d.setTrust t).pw = d.pw := by unfold Dev.setTrust; simp only; split <;> simp
@[simp] theorem Dev.setTrust_io (t : Nat) : (d.setTrust t).io = d.io := by unfold Dev.setTrust; simp only; split <;> simp
@[simp] theorem Dev.setTrust_boot (t : Nat) : (d.setTrust t).boot = d.boot := by unfold Dev.setTrust; simp only; split <;> simp
@[simp] theorem Dev.setTrust_adm (t : Nat) : (d.setTrust t).adm = d.adm := by unfold Dev.setTrust; simp only; split <;> simp
@[simp] theorem Dev.setTrust_port (t : Nat) (x : PortId) : (d.setTrust t).port x = d.port x := by cases x <;> simp [Dev.port]
@[simp] theorem Dev.setTrust_ctx (t : Nat) (x : Nat) : (d.setTrust t).ctx x = d.ctx x := by simp [Dev.ctx]
@[simp] theorem Dev.setTrust_cmd (t : Nat) (x : Nat) : (d.setTrust t).cmd x = d.cmd x := by simp [Dev.cmd]
@[simp] theorem Dev.setTrust_sw (t : Nat) (x : Fin 16) : (d.setTrust t).sw x = d.sw x := by simp [Dev.sw]
@[simp] theorem Dev.setTrust_pathReg (t : Nat) (x : ReqPath) (y : Nat) : (d.setTrust t).pathReg x y = d.pathReg x y := by simp [Dev.pathReg]

/-! ### setSlot -/

@[simp] theorem Dev.setSlot_prs (k : Nat) (z : Slot) : (d.setSlot k z).prs = d.prs := by simp [Dev.setSlot, apply_ite Dev.prs]
@[simp] theorem Dev.setSlot_now (k : Nat) (z : Slot) : (d.setSlot k z).now = d.now := by simp [Dev.setSlot, apply_ite Dev.now]
@[simp] theorem Dev.setSlot_freeNo (k : Nat) (z : Slot) : (d.setSlot k z).freeNo = d.freeNo := by simp [Dev.setSlot, apply_ite Dev.freeNo]
@[simp] theorem Dev.setSlot_portA (k : Nat) (z : Slot) : (d.setSlot k z).portA = d.portA := by simp [Dev.setSlot, apply_ite Dev.portA]
@[simp] theorem Dev.setSlot_portB (k : Nat) (z : Slot) : (d.setSlot k z).portB = d.portB := by simp [Dev.setSlot, apply_ite Dev.portB]
@[simp] theorem Dev.setSlot_portC (k : Nat) (z : Slot) : (d.setSlot k z).portC = d.portC := by simp [Dev.setSlot, apply_ite Dev.portC]
@[simp] theorem Dev.setSlot_pool (k : Nat) (z : Slot) : (d.setSlot k z).pool = d.pool := by simp [Dev.setSlot, apply_ite Dev.pool]
@[simp] theorem Dev.setSlot_pool7 (k : Nat) (z : Slot) : (d.setSlot k z).pool7 = d.pool7 := by simp [Dev.setSlot, apply_ite Dev.pool7]
@[simp] theorem Dev.setSlot_ses (k : Nat) (z : Slot) : (d.setSlot k z).ses = d.ses := by simp [Dev.setSlot, apply_ite Dev.ses]
@[simp] theorem Dev.setSlot_pol (k : Nat) (z : Slot) : (d.setSlot k z).pol = d.pol := by simp [Dev.setSlot, apply_ite Dev.pol]
@[simp] theorem Dev.setSlot_irq (k : Nat) (z : Slot) : (d.setSlot k z).irq = d.irq := by simp [Dev.setSlot, apply_ite Dev.irq]
@[simp] theorem Dev.setSlot_cal (k : Nat) (z : Slot) : (d.setSlot k z).cal = d.cal := by simp [Dev.setSlot, apply_ite Dev.cal]
@[simp] theorem Dev.setSlot_evr (k : Nat) (z : Slot) : (d.setSlot k z).evr = d.evr := by simp [Dev.setSlot, apply_ite Dev.evr]
@[simp] theorem Dev.setSlot_sws (k : Nat) (z : Slot) : (d.setSlot k z).sws = d.sws := by simp [Dev.setSlot, apply_ite Dev.sws]
@[simp] theorem Dev.setSlot_pw (k : Nat) (z : Slot) : (d.setSlot k z).pw = d.pw := by simp [Dev.setSlot, apply_ite Dev.pw]
@[simp] theorem Dev.setSlot_io (k : Nat) (z : Slot) : (d.setSlot k z).io = d.io := by simp [Dev.setSlot, apply_ite Dev.io]
@[simp] theorem Dev.setSlot_boot (k : Nat) (z : Slot) : (d.setSlot k z).boot = d.boot := by simp [Dev.setSlot, apply_ite Dev.boot]
@[simp] theorem Dev.setSlot_adm (k : Nat) (z : Slot) : (d.setSlot k z).adm = d.adm := by simp [Dev.setSlot, apply_ite Dev.adm]
@[simp] theorem Dev.setSlot_port (k : Nat) (z : Slot) (x : PortId) : (d.setSlot k z).port x = d.port x := by cases x <;> simp [Dev.port]
@[simp] theorem Dev.setSlot_ctx (k : Nat) (z : Slot) (x : Nat) : (d.setSlot k z).ctx x = d.ctx x := by simp [Dev.ctx]
@[simp] theorem Dev.setSlot_sw (k : Nat) (z : Slot) (x : Fin 16) : (d.setSlot k z).sw x = d.sw x := by simp [Dev.sw]
@[simp] theorem Dev.setSlot_src (k : Nat) (z : Slot) (x : Nat) : (d.setSlot k z).src x = d.src x := by simp [Dev.src]
@[simp] theorem Dev.setSlot_pathReg (k : Nat) (z : Slot) (x : ReqPath) (y : Nat) : (d.setSlot k z).pathReg x y = d.pathReg x y := by simp [Dev.pathReg]

/-! ### updPort -/

@[simp] theorem Dev.updPort_regs (p : PortId) (f : PortSt → PortSt) : (d.updPort p f).regs = d.regs := by cases p <;> rfl
@[simp] theorem Dev.updPort_prs (p : PortId) (f : PortSt → PortSt) : (d.updPort p f).prs = d.prs := by cases p <;> rfl
@[simp] theorem Dev.updPort_now (p : PortId) (f : PortSt → PortSt) : (d.updPort p f).now = d.now := by cases p <;> rfl
@[simp] theorem Dev.updPort_freeNo (p : PortId) (f : PortSt → PortSt) : (d.updPort p f).freeNo = d.freeNo := by cases p <;> rfl
@[simp] theorem Dev.updPort_pool (p : PortId) (f : PortSt → PortSt) : (d.updPort p f).pool = d.pool := by cases p <;> rfl
@[simp] theorem Dev.updPort_pool7 (p : PortId) (f : PortSt → PortSt) : (d.updPort p f).pool7 = d.pool7 := by cases p <;> rfl
@[simp] theorem Dev.updPort_ses (p : PortId) (f : PortSt → PortSt) : (d.updPort p f).ses = d.ses := by cases p <;> rfl
@[simp] theorem Dev.updPort_disp (p : PortId) (f : PortSt → PortSt) : (d.updPort p f).disp = d.disp := by cases p <;> rfl
@[simp] theorem Dev.updPort_pol (p : PortId) (f : PortSt → PortSt) : (d.updPort p f).pol = d.pol := by cases p <;> rfl
@[simp] theorem Dev.updPort_irq (p : PortId) (f : PortSt → PortSt) : (d.updPort p f).irq = d.irq := by cases p <;> rfl
@[simp] theorem Dev.updPort_cal (p : PortId) (f : PortSt → PortSt) : (d.updPort p f).cal = d.cal := by cases p <;> rfl
@[simp] theorem Dev.updPort_evr (p : PortId) (f : PortSt → PortSt) : (d.updPort p f).evr = d.evr := by cases p <;> rfl
@[simp] theorem Dev.updPort_sws (p : PortId) (f : PortSt → PortSt) : (d.updPort p f).sws = d.sws := by cases p <;> rfl
@[simp] theorem Dev.updPort_pw (p : PortId) (f : PortSt → PortSt) : (d.updPort p f).pw = d.pw := by cases p <;> rfl
@[simp] theorem Dev.updPort_io (p : PortId) (f : PortSt → PortSt) : (d.updPort p f).io = d.io := by cases p <;> rfl
@[simp] theorem Dev.updPort_boot (p : PortId) (f : PortSt → PortSt) : (d.updPort p f).boot = d.boot := by cases p <;> rfl
@[simp] theorem Dev.updPort_adm (p : PortId) (f : PortSt → PortSt) : (d.updPort p f).adm = d.adm := by cases p <;> rfl
@[simp] theorem Dev.updPort_reg (p : PortId) (f : PortSt → PortSt) (x : Nat) : (d.updPort p f).reg x = d.reg x := by cases p <;> rfl
@[simp] theorem Dev.updPort_fld (p : PortId) (f : PortSt → PortSt) (x : Nat) (g : Fld) : (d.updPort p f).fld x g = d.fld x g := by cases p <;> rfl
@[simp] theorem Dev.updPort_flag (p : PortId) (f : PortSt → PortSt) (x : Nat) (g : Fld) : (d.updPort p f).flag x g = d.flag x g := by simp [Dev.flag]
@[simp] theorem Dev.updPort_ctx (p : PortId) (f : PortSt → PortSt) (x : Nat) : (d.updPort p f).ctx x = d.ctx x := by cases p <;> rfl
@[simp] theorem Dev.updPort_cmd (p : PortId) (f : PortSt → PortSt) (x : Nat) : (d.updPort p f).cmd x = d.cmd x := by cases p <;> rfl
@[simp] theorem Dev.updPort_sw (p : PortId) (f : PortSt → PortSt) (x : Fin 16) : (d.updPort p f).sw x = d.sw x := by cases p <;> rfl
@[simp] theorem Dev.updPort_src (p : PortId) (f : PortSt → PortSt) (x : Nat) : (d.updPort p f).src x = d.src x := by cases p <;> rfl
@[simp] theorem Dev.updPort_pathReg (p : PortId) (f : PortSt → PortSt) (x : ReqPath) (y : Nat) : (d.updPort p f).pathReg x y = d.pathReg x y := by cases p <;> rfl

/-! ### enqueue -/

@[simp] theorem Dev.enqueue_regs (p : PortId) (e : TxEnt) : (d.enqueue p e).regs = d.regs := by cases p <;> rfl
@[simp] theorem Dev.enqueue_prs (p : PortId) (e : TxEnt) : (d.enqueue p e).prs = d.prs := by cases p <;> rfl
@[simp] theorem Dev.enqueue_now (p : PortId) (e : TxEnt) : (d.enqueue p e).now = d.now := by cases p <;> rfl
@[simp] theorem Dev.enqueue_freeNo (p : PortId) (e : TxEnt) : (d.enqueue p e).freeNo = d.freeNo := by cases p <;> rfl
@[simp] theorem Dev.enqueue_pool (p : PortId) (e : TxEnt) : (d.enqueue p e).pool = d.pool := by cases p <;> rfl
@[simp] theorem Dev.enqueue_pool7 (p : PortId) (e : TxEnt) : (d.enqueue p e).pool7 = d.pool7 := by cases p <;> rfl
@[simp] theorem Dev.enqueue_ses (p : PortId) (e : TxEnt) : (d.enqueue p e).ses = d.ses := by cases p <;> rfl
@[simp] theorem Dev.enqueue_disp (p : PortId) (e : TxEnt) : (d.enqueue p e).disp = d.disp := by cases p <;> rfl
@[simp] theorem Dev.enqueue_pol (p : PortId) (e : TxEnt) : (d.enqueue p e).pol = d.pol := by cases p <;> rfl
@[simp] theorem Dev.enqueue_irq (p : PortId) (e : TxEnt) : (d.enqueue p e).irq = d.irq := by cases p <;> rfl
@[simp] theorem Dev.enqueue_cal (p : PortId) (e : TxEnt) : (d.enqueue p e).cal = d.cal := by cases p <;> rfl
@[simp] theorem Dev.enqueue_evr (p : PortId) (e : TxEnt) : (d.enqueue p e).evr = d.evr := by cases p <;> rfl
@[simp] theorem Dev.enqueue_sws (p : PortId) (e : TxEnt) : (d.enqueue p e).sws = d.sws := by cases p <;> rfl
@[simp] theorem Dev.enqueue_pw (p : PortId) (e : TxEnt) : (d.enqueue p e).pw = d.pw := by cases p <;> rfl
@[simp] theorem Dev.enqueue_io (p : PortId) (e : TxEnt) : (d.enqueue p e).io = d.io := by cases p <;> rfl
@[simp] theorem Dev.enqueue_boot (p : PortId) (e : TxEnt) : (d.enqueue p e).boot = d.boot := by cases p <;> rfl
@[simp] theorem Dev.enqueue_adm (p : PortId) (e : TxEnt) : (d.enqueue p e).adm = d.adm := by cases p <;> rfl
@[simp] theorem Dev.enqueue_reg (p : PortId) (e : TxEnt) (x : Nat) : (d.enqueue p e).reg x = d.reg x := by cases p <;> rfl
@[simp] theorem Dev.enqueue_fld (p : PortId) (e : TxEnt) (x : Nat) (g : Fld) : (d.enqueue p e).fld x g = d.fld x g := by cases p <;> rfl
@[simp] theorem Dev.enqueue_flag (p : PortId) (e : TxEnt) (x : Nat) (g : Fld) : (d.enqueue p e).flag x g = d.flag x g := by simp [Dev.flag]
@[simp] theorem Dev.enqueue_ctx (p : PortId) (e : TxEnt) (x : Nat) : (d.enqueue p e).ctx x = d.ctx x := by cases p <;> rfl
@[simp] theorem Dev.enqueue_cmd (p : PortId) (e : TxEnt) (x : Nat) : (d.enqueue p e).cmd x = d.cmd x := by cases p <;> rfl
@[simp] theorem Dev.enqueue_sw (p : PortId) (e : TxEnt) (x : Fin 16) : (d.enqueue p e).sw x = d.sw x := by cases p <;> rfl
@[simp] theorem Dev.enqueue_src (p : PortId) (e : TxEnt) (x : Nat) : (d.enqueue p e).src x = d.src x := by cases p <;> rfl
@[simp] theorem Dev.enqueue_pathReg (p : PortId) (e : TxEnt) (x : ReqPath) (y : Nat) : (d.enqueue p e).pathReg x y = d.pathReg x y := by cases p <;> rfl

/-! ### portCount -/

@[simp] theorem Dev.portCount_prs (p : PortId) (k n : Nat) : (d.portCount p k n).prs = d.prs := by unfold Dev.portCount; simp only; split <;> simp
@[simp] theorem Dev.portCount_now (p : PortId) (k n : Nat) : (d.portCount p k n).now = d.now := by unfold Dev.portCount; simp only; split <;> simp
@[simp] theorem Dev.portCount_freeNo (p : PortId) (k n : Nat) : (d.portCount p k n).freeNo = d.freeNo := by unfold Dev.portCount; simp only; split <;> simp
@[simp] theorem Dev.portCount_portA (p : PortId) (k n : Nat) : (d.portCount p k n).portA = d.portA := by unfold Dev.portCount; simp only; split <;> simp
@[simp] theorem Dev.portCount_portB (p : PortId) (k n : Nat) : (d.portCount p k n).portB = d.portB := by unfold Dev.portCount; simp only; split <;> simp
@[simp] theorem Dev.portCount_portC (p : PortId) (k n : Nat) : (d.portCount p k n).portC = d.portC := by unfold Dev.portCount; simp only; split <;> simp
@[simp] theorem Dev.portCount_pool (p : PortId) (k n : Nat) : (d.portCount p k n).pool = d.pool := by unfold Dev.portCount; simp only; split <;> simp
@[simp] theorem Dev.portCount_pool7 (p : PortId) (k n : Nat) : (d.portCount p k n).pool7 = d.pool7 := by unfold Dev.portCount; simp only; split <;> simp
@[simp] theorem Dev.portCount_ses (p : PortId) (k n : Nat) : (d.portCount p k n).ses = d.ses := by unfold Dev.portCount; simp only; split <;> simp
@[simp] theorem Dev.portCount_disp (p : PortId) (k n : Nat) : (d.portCount p k n).disp = d.disp := by unfold Dev.portCount; simp only; split <;> simp
@[simp] theorem Dev.portCount_pol (p : PortId) (k n : Nat) : (d.portCount p k n).pol = d.pol := by unfold Dev.portCount; simp only; split <;> simp
@[simp] theorem Dev.portCount_cal (p : PortId) (k n : Nat) : (d.portCount p k n).cal = d.cal := by unfold Dev.portCount; simp only; split <;> simp
@[simp] theorem Dev.portCount_evr (p : PortId) (k n : Nat) : (d.portCount p k n).evr = d.evr := by unfold Dev.portCount; simp only; split <;> simp
@[simp] theorem Dev.portCount_sws (p : PortId) (k n : Nat) : (d.portCount p k n).sws = d.sws := by unfold Dev.portCount; simp only; split <;> simp
@[simp] theorem Dev.portCount_pw (p : PortId) (k n : Nat) : (d.portCount p k n).pw = d.pw := by unfold Dev.portCount; simp only; split <;> simp
@[simp] theorem Dev.portCount_io (p : PortId) (k n : Nat) : (d.portCount p k n).io = d.io := by unfold Dev.portCount; simp only; split <;> simp
@[simp] theorem Dev.portCount_boot (p : PortId) (k n : Nat) : (d.portCount p k n).boot = d.boot := by unfold Dev.portCount; simp only; split <;> simp
@[simp] theorem Dev.portCount_adm (p : PortId) (k n : Nat) : (d.portCount p k n).adm = d.adm := by unfold Dev.portCount; simp only; split <;> simp
@[simp] theorem Dev.portCount_port (p : PortId) (k n : Nat) (x : PortId) : (d.portCount p k n).port x = d.port x := by cases x <;> simp [Dev.port]
@[simp] theorem Dev.portCount_ctx (p : PortId) (k n : Nat) (x : Nat) : (d.portCount p k n).ctx x = d.ctx x := by simp [Dev.ctx]
@[simp] theorem Dev.portCount_cmd (p : PortId) (k n : Nat) (x : Nat) : (d.portCount p k n).cmd x = d.cmd x := by simp [Dev.cmd]
@[simp] theorem Dev.portCount_sw (p : PortId) (k n : Nat) (x : Fin 16) : (d.portCount p k n).sw x = d.sw x := by simp [Dev.sw]
@[simp] theorem Dev.portCount_pathReg (p : PortId) (k n : Nat) (x : ReqPath) (y : Nat) : (d.portCount p k n).pathReg x y = d.pathReg x y := by simp [Dev.pathReg]

/-! ### flowCheckPort -/

@[simp] theorem Dev.flowCheckPort_regs (p : PortId) : (d.flowCheckPort p).regs = d.regs := by unfold Dev.flowCheckPort; split <;> simp
@[simp] theorem Dev.flowCheckPort_prs (p : PortId) : (d.flowCheckPort p).prs = d.prs := by unfold Dev.flowCheckPort; split <;> simp
@[simp] theorem Dev.flowCheckPort_now (p : PortId) : (d.flowCheckPort p).now = d.now := by unfold Dev.flowCheckPort; split <;> simp
@[simp] theorem Dev.flowCheckPort_freeNo (p : PortId) : (d.flowCheckPort p).freeNo = d.freeNo := by unfold Dev.flowCheckPort; split <;> simp
@[simp] theorem Dev.flowCheckPort_pool (p : PortId) : (d.flowCheckPort p).pool = d.pool := by unfold Dev.flowCheckPort; split <;> simp
@[simp] theorem Dev.flowCheckPort_pool7 (p : PortId) : (d.flowCheckPort p).pool7 = d.pool7 := by unfold Dev.flowCheckPort; split <;> simp
@[simp] theorem Dev.flowCheckPort_ses (p : PortId) : (d.flowCheckPort p).ses = d.ses := by unfold Dev.flowCheckPort; split <;> simp
@[simp] theorem Dev.flowCheckPort_disp (p : PortId) : (d.flowCheckPort p).disp = d.disp := by unfold Dev.flowCheckPort; split <;> simp
@[simp] theorem Dev.flowCheckPort_pol (p : PortId) : (d.flowCheckPort p).pol = d.pol := by unfold Dev.flowCheckPort; split <;> simp
@[simp] theorem Dev.flowCheckPort_irq (p : PortId) : (d.flowCheckPort p).irq = d.irq := by unfold Dev.flowCheckPort; split <;> simp
@[simp] theorem Dev.flowCheckPort_cal (p : PortId) : (d.flowCheckPort p).cal = d.cal := by unfold Dev.flowCheckPort; split <;> simp
@[simp] theorem Dev.flowCheckPort_evr (p : PortId) : (d.flowCheckPort p).evr = d.evr := by unfold Dev.flowCheckPort; split <;> simp
@[simp] theorem Dev.flowCheckPort_sws (p : PortId) : (d.flowCheckPort p).sws = d.sws := by unfold Dev.flowCheckPort; split <;> simp
@[simp] theorem Dev.flowCheckPort_pw (p : PortId) : (d.flowCheckPort p).pw = d.pw := by unfold Dev.flowCheckPort; split <;> simp
@[simp] theorem Dev.flowCheckPort_io (p : PortId) : (d.flowCheckPort p).io = d.io := by unfold Dev.flowCheckPort; split <;> simp
@[simp] theorem Dev.flowCheckPort_boot (p : PortId) : (d.flowCheckPort p).boot = d.boot := by unfold Dev.flowCheckPort; split <;> simp
@[simp] theorem Dev.flowCheckPort_adm (p : PortId) : (d.flowCheckPort p).adm = d.adm := by unfold Dev.flowCheckPort; split <;> simp
@[simp] theorem Dev.flowCheckPort_reg (p : PortId) (x : Nat) : (d.flowCheckPort p).reg x = d.reg x := by simp [Dev.reg]
@[simp] theorem Dev.flowCheckPort_fld (p : PortId) (x : Nat) (g : Fld) : (d.flowCheckPort p).fld x g = d.fld x g := by simp [Dev.fld, Dev.reg]
@[simp] theorem Dev.flowCheckPort_flag (p : PortId) (x : Nat) (g : Fld) : (d.flowCheckPort p).flag x g = d.flag x g := by simp [Dev.flag, Dev.fld, Dev.reg]
@[simp] theorem Dev.flowCheckPort_ctx (p : PortId) (x : Nat) : (d.flowCheckPort p).ctx x = d.ctx x := by simp [Dev.ctx]
@[simp] theorem Dev.flowCheckPort_cmd (p : PortId) (x : Nat) : (d.flowCheckPort p).cmd x = d.cmd x := by simp [Dev.cmd]
@[simp] theorem Dev.flowCheckPort_sw (p : PortId) (x : Fin 16) : (d.flowCheckPort p).sw x = d.sw x := by simp [Dev.sw]
@[simp] theorem Dev.flowCheckPort_src (p : PortId) (x : Nat) : (d.flowCheckPort p).src x = d.src x := by simp [Dev.src]
@[simp] theorem Dev.flowCheckPort_pathReg (p : PortId) (x : ReqPath) (y : Nat) : (d.flowCheckPort p).pathReg x y = d.pathReg x y := by simp [Dev.pathReg]

/-! ### flowCheck -/

@[simp] theorem Dev.flowCheck_regs : (d.flowCheck).regs = d.regs := by simp [Dev.flowCheck]
@[simp] theorem Dev.flowCheck_prs : (d.flowCheck).prs = d.prs := by simp [Dev.flowCheck]
@[simp] theorem Dev.flowCheck_now : (d.flowCheck).now = d.now := by simp [Dev.flowCheck]
@[simp] theorem Dev.flowCheck_freeNo : (d.flowCheck).freeNo = d.freeNo := by simp [Dev.flowCheck]
@[simp] theorem Dev.flowCheck_pool : (d.flowCheck).pool = d.pool := by simp [Dev.flowCheck]
@[simp] theorem Dev.flowCheck_pool7 : (d.flowCheck).pool7 = d.pool7 := by simp [Dev.flowCheck]
@[simp] theorem Dev.flowCheck_ses : (d.flowCheck).ses = d.ses := by simp [Dev.flowCheck]
@[simp] theorem Dev.flowCheck_disp : (d.flowCheck).disp = d.disp := by simp [Dev.flowCheck]
@[simp] theorem Dev.flowCheck_pol : (d.flowCheck).pol = d.pol := by simp [Dev.flowCheck]
@[simp] theorem Dev.flowCheck_irq : (d.flowCheck).irq = d.irq := by simp [Dev.flowCheck]
@[simp] theorem Dev.flowCheck_cal : (d.flowCheck).cal = d.cal := by simp [Dev.flowCheck]
@[simp] theorem Dev.flowCheck_evr : (d.flowCheck).evr = d.evr := by simp [Dev.flowCheck]
@[simp] theorem Dev.flowCheck_sws : (d.flowCheck).sws = d.sws := by simp [Dev.flowCheck]
@[simp] theorem Dev.flowCheck_pw : (d.flowCheck).pw = d.pw := by simp [Dev.flowCheck]
@[simp] theorem Dev.flowCheck_io : (d.flowCheck).io = d.io := by simp [Dev.flowCheck]
@[simp] theorem Dev.flowCheck_boot : (d.flowCheck).boot = d.boot := by simp [Dev.flowCheck]
@[simp] theorem Dev.flowCheck_adm : (d.flowCheck).adm = d.adm := by simp [Dev.flowCheck]
@[simp] theorem Dev.flowCheck_reg (x : Nat) : (d.flowCheck).reg x = d.reg x := by simp [Dev.reg]
@[simp] theorem Dev.flowCheck_fld (x : Nat) (g : Fld) : (d.flowCheck).fld x g = d.fld x g := by simp [Dev.fld, Dev.reg]
@[simp] theorem Dev.flowCheck_flag (x : Nat) (g : Fld) : (d.flowCheck).flag x g = d.flag x g := by simp [Dev.flag, Dev.fld, Dev.reg]
@[simp] theorem Dev.flowCheck_ctx (x : Nat) : (d.flowCheck).ctx x = d.ctx x := by simp [Dev.ctx]
@[simp] theorem Dev.flowCheck_cmd (x : Nat) : (d.flowCheck).cmd x = d.cmd x := by simp [Dev.cmd]
@[simp] theorem Dev.flowCheck_sw (x : Fin 16) : (d.flowCheck).sw x = d.sw x := by simp [Dev.sw]
@[simp] theorem Dev.flowCheck_src (x : Nat) : (d.flowCheck).src x = d.src x := by simp [Dev.src]
@[simp] theorem Dev.flowCheck_pathReg (x : ReqPath) (y : Nat) : (d.flowCheck).pathReg x y = d.pathReg x y := by simp [Dev.pathReg]

/-! ### notePort -/

@[simp] theorem Dev.notePort_prs (p : PortId) : (d.notePort p).prs = d.prs := by unfold Dev.notePort; split <;> rfl
@[simp] theorem Dev.notePort_now (p : PortId) : (d.notePort p).now = d.now := by unfold Dev.notePort; split <;> rfl
@[simp] theorem Dev.notePort_freeNo (p : PortId) : (d.notePort p).freeNo = d.freeNo := by unfold Dev.notePort; split <;> rfl
@[simp] theorem Dev.notePort_portA (p : PortId) : (d.notePort p).portA = d.portA := by unfold Dev.notePort; split <;> rfl
@[simp] theorem Dev.notePort_portB (p : PortId) : (d.notePort p).portB = d.portB := by unfold Dev.notePort; split <;> rfl
@[simp] theorem Dev.notePort_portC (p : PortId) : (d.notePort p).portC = d.portC := by unfold Dev.notePort; split <;> rfl
@[simp] theorem Dev.notePort_pool (p : PortId) : (d.notePort p).pool = d.pool := by unfold Dev.notePort; split <;> rfl
@[simp] theorem Dev.notePort_pool7 (p : PortId) : (d.notePort p).pool7 = d.pool7 := by unfold Dev.notePort; split <;> rfl
@[simp] theorem Dev.notePort_ses (p : PortId) : (d.notePort p).ses = d.ses := by unfold Dev.notePort; split <;> rfl
@[simp] theorem Dev.notePort_disp (p : PortId) : (d.notePort p).disp = d.disp := by unfold Dev.notePort; split <;> rfl
@[simp] theorem Dev.notePort_pol (p : PortId) : (d.notePort p).pol = d.pol := by unfold Dev.notePort; split <;> rfl
@[simp] theorem Dev.notePort_irq (p : PortId) : (d.notePort p).irq = d.irq := by unfold Dev.notePort; split <;> rfl
@[simp] theorem Dev.notePort_cal (p : PortId) : (d.notePort p).cal = d.cal := by unfold Dev.notePort; split <;> rfl
@[simp] theorem Dev.notePort_evr (p : PortId) : (d.notePort p).evr = d.evr := by unfold Dev.notePort; split <;> rfl
@[simp] theorem Dev.notePort_sws (p : PortId) : (d.notePort p).sws = d.sws := by unfold Dev.notePort; split <;> rfl
@[simp] theorem Dev.notePort_pw (p : PortId) : (d.notePort p).pw = d.pw := by unfold Dev.notePort; split <;> rfl
@[simp] theorem Dev.notePort_io (p : PortId) : (d.notePort p).io = d.io := by unfold Dev.notePort; split <;> rfl
@[simp] theorem Dev.notePort_boot (p : PortId) : (d.notePort p).boot = d.boot := by unfold Dev.notePort; split <;> rfl
@[simp] theorem Dev.notePort_adm (p : PortId) : (d.notePort p).adm = d.adm := by unfold Dev.notePort; split <;> rfl
@[simp] theorem Dev.notePort_port (p : PortId) (x : PortId) : (d.notePort p).port x = d.port x := by cases x <;> simp [Dev.port]
@[simp] theorem Dev.notePort_ctx (p : PortId) (x : Nat) : (d.notePort p).ctx x = d.ctx x := by simp [Dev.ctx]
@[simp] theorem Dev.notePort_cmd (p : PortId) (x : Nat) : (d.notePort p).cmd x = d.cmd x := by simp [Dev.cmd]
@[simp] theorem Dev.notePort_sw (p : PortId) (x : Fin 16) : (d.notePort p).sw x = d.sw x := by simp [Dev.sw]
@[simp] theorem Dev.notePort_src (p : PortId) (x : Nat) : (d.notePort p).src x = d.src x := by simp [Dev.src]
@[simp] theorem Dev.notePort_pathReg (p : PortId) (x : ReqPath) (y : Nat) : (d.notePort p).pathReg x y = d.pathReg x y := by simp [Dev.pathReg]

/-! ### noteLow -/

@[simp] theorem Dev.noteLow_prs : (d.noteLow).prs = d.prs := by simp [Dev.noteLow]
@[simp] theorem Dev.noteLow_now : (d.noteLow).now = d.now := by simp [Dev.noteLow]
@[simp] theorem Dev.noteLow_freeNo : (d.noteLow).freeNo = d.freeNo := by simp [Dev.noteLow]
@[simp] theorem Dev.noteLow_portA : (d.noteLow).portA = d.portA := by simp [Dev.noteLow]
@[simp] theorem Dev.noteLow_portB : (d.noteLow).portB = d.portB := by simp [Dev.noteLow]
@[simp] theorem Dev.noteLow_portC : (d.noteLow).portC = d.portC := by simp [Dev.noteLow]
@[simp] theorem Dev.noteLow_pool : (d.noteLow).pool = d.pool := by simp [Dev.noteLow]
@[simp] theorem Dev.noteLow_pool7 : (d.noteLow).pool7 = d.pool7 := by simp [Dev.noteLow]
@[simp] theorem Dev.noteLow_ses : (d.noteLow).ses = d.ses := by simp [Dev.noteLow]
@[simp] theorem Dev.noteLow_disp : (d.noteLow).disp = d.disp := by simp [Dev.noteLow]
@[simp] theorem Dev.noteLow_pol : (d.noteLow).pol = d.pol := by simp [Dev.noteLow]
@[simp] theorem Dev.noteLow_irq : (d.noteLow).irq = d.irq := by simp [Dev.noteLow]
@[simp] theorem Dev.noteLow_cal : (d.noteLow).cal = d.cal := by simp [Dev.noteLow]
@[simp] theorem Dev.noteLow_evr : (d.noteLow).evr = d.evr := by simp [Dev.noteLow]
@[simp] theorem Dev.noteLow_sws : (d.noteLow).sws = d.sws := by simp [Dev.noteLow]
@[simp] theorem Dev.noteLow_pw : (d.noteLow).pw = d.pw := by simp [Dev.noteLow]
@[simp] theorem Dev.noteLow_io : (d.noteLow).io = d.io := by simp [Dev.noteLow]
@[simp] theorem Dev.noteLow_boot : (d.noteLow).boot = d.boot := by simp [Dev.noteLow]
@[simp] theorem Dev.noteLow_adm : (d.noteLow).adm = d.adm := by simp [Dev.noteLow]
@[simp] theorem Dev.noteLow_port (x : PortId) : (d.noteLow).port x = d.port x := by cases x <;> simp [Dev.port]
@[simp] theorem Dev.noteLow_ctx (x : Nat) : (d.noteLow).ctx x = d.ctx x := by simp [Dev.ctx]
@[simp] theorem Dev.noteLow_cmd (x : Nat) : (d.noteLow).cmd x = d.cmd x := by simp [Dev.cmd]
@[simp] theorem Dev.noteLow_sw (x : Fin 16) : (d.noteLow).sw x = d.sw x := by simp [Dev.sw]
@[simp] theorem Dev.noteLow_src (x : Nat) : (d.noteLow).src x = d.src x := by simp [Dev.src]
@[simp] theorem Dev.noteLow_pathReg (x : ReqPath) (y : Nat) : (d.noteLow).pathReg x y = d.pathReg x y := by simp [Dev.pathReg]

/-! ### takeCells -/

@[simp] theorem Dev.takeCells_prs (m n : Nat) : (d.takeCells m n).prs = d.prs := by simp [Dev.takeCells]
@[simp] theorem Dev.takeCells_now (m n : Nat) : (d.takeCells m n).now = d.now := by simp [Dev.takeCells]
@[simp] theorem Dev.takeCells_freeNo (m n : Nat) : (d.takeCells m n).freeNo = d.freeNo := by simp [Dev.takeCells]
@[simp] theorem Dev.takeCells_ses (m n : Nat) : (d.takeCells m n).ses = d.ses := by simp [Dev.takeCells]
@[simp] theorem Dev.takeCells_disp (m n : Nat) : (d.takeCells m n).disp = d.disp := by simp [Dev.takeCells]
@[simp] theorem Dev.takeCells_pol (m n : Nat) : (d.takeCells m n).pol = d.pol := by simp [Dev.takeCells]
@[simp] theorem Dev.takeCells_irq (m n : Nat) : (d.takeCells m n).irq = d.irq := by simp [Dev.takeCells]
@[simp] theorem Dev.takeCells_cal (m n : Nat) : (d.takeCells m n).cal = d.cal := by simp [Dev.takeCells]
@[simp] theorem Dev.takeCells_evr (m n : Nat) : (d.takeCells m n).evr = d.evr := by simp [Dev.takeCells]
@[simp] theorem Dev.takeCells_sws (m n : Nat) : (d.takeCells m n).sws = d.sws := by simp [Dev.takeCells]
@[simp] theorem Dev.takeCells_pw (m n : Nat) : (d.takeCells m n).pw = d.pw := by simp [Dev.takeCells]
@[simp] theorem Dev.takeCells_io (m n : Nat) : (d.takeCells m n).io = d.io := by simp [Dev.takeCells]
@[simp] theorem Dev.takeCells_boot (m n : Nat) : (d.takeCells m n).boot = d.boot := by simp [Dev.takeCells]
@[simp] theorem Dev.takeCells_adm (m n : Nat) : (d.takeCells m n).adm = d.adm := by simp [Dev.takeCells]
@[simp] theorem Dev.takeCells_ctx (m n : Nat) (x : Nat) : (d.takeCells m n).ctx x = d.ctx x := by simp [Dev.ctx]
@[simp] theorem Dev.takeCells_cmd (m n : Nat) (x : Nat) : (d.takeCells m n).cmd x = d.cmd x := by simp [Dev.cmd]
@[simp] theorem Dev.takeCells_sw (m n : Nat) (x : Fin 16) : (d.takeCells m n).sw x = d.sw x := by simp [Dev.sw]
@[simp] theorem Dev.takeCells_src (m n : Nat) (x : Nat) : (d.takeCells m n).src x = d.src x := by simp [Dev.src]
@[simp] theorem Dev.takeCells_pathReg (m n : Nat) (x : ReqPath) (y : Nat) : (d.takeCells m n).pathReg x y = d.pathReg x y := by simp [Dev.pathReg]

/-! ### giveCells -/

@[simp] theorem Dev.giveCells_regs (m n : Nat) : (d.giveCells m n).regs = d.regs := by simp [Dev.giveCells]
@[simp] theorem Dev.giveCells_prs (m n : Nat) : (d.giveCells m n).prs = d.prs := by simp [Dev.giveCells]
@[simp] theorem Dev.giveCells_now (m n : Nat) : (d.giveCells m n).now = d.now := by simp [Dev.giveCells]
@[simp] theorem Dev.giveCells_freeNo (m n : Nat) : (d.giveCells m n).freeNo = d.freeNo := by simp [Dev.giveCells]
@[simp] theorem Dev.giveCells_ses (m n : Nat) : (d.giveCells m n).ses = d.ses := by simp [Dev.giveCells]
@[simp] theorem Dev.giveCells_disp (m n : Nat) : (d.giveCells m n).disp = d.disp := by simp [Dev.giveCells]
@[simp] theorem Dev.giveCells_pol (m n : Nat) : (d.giveCells m n).pol = d.pol := by simp [Dev.giveCells]
@[simp] theorem Dev.giveCells_irq (m n : Nat) : (d.giveCells m n).irq = d.irq := by simp [Dev.giveCells]
@[simp] theorem Dev.giveCells_cal (m n : Nat) : (d.giveCells m n).cal = d.cal := by simp [Dev.giveCells]
@[simp] theorem Dev.giveCells_evr (m n : Nat) : (d.giveCells m n).evr = d.evr := by simp [Dev.giveCells]
@[simp] theorem Dev.giveCells_sws (m n : Nat) : (d.giveCells m n).sws = d.sws := by simp [Dev.giveCells]
@[simp] theorem Dev.giveCells_pw (m n : Nat) : (d.giveCells m n).pw = d.pw := by simp [Dev.giveCells]
@[simp] theorem Dev.giveCells_io (m n : Nat) : (d.giveCells m n).io = d.io := by simp [Dev.giveCells]
@[simp] theorem Dev.giveCells_boot (m n : Nat) : (d.giveCells m n).boot = d.boot := by simp [Dev.giveCells]
@[simp] theorem Dev.giveCells_adm (m n : Nat) : (d.giveCells m n).adm = d.adm := by simp [Dev.giveCells]
@[simp] theorem Dev.giveCells_reg (m n : Nat) (x : Nat) : (d.giveCells m n).reg x = d.reg x := by simp [Dev.reg]
@[simp] theorem Dev.giveCells_fld (m n : Nat) (x : Nat) (g : Fld) : (d.giveCells m n).fld x g = d.fld x g := by simp [Dev.fld, Dev.reg]
@[simp] theorem Dev.giveCells_flag (m n : Nat) (x : Nat) (g : Fld) : (d.giveCells m n).flag x g = d.flag x g := by simp [Dev.flag, Dev.fld, Dev.reg]
@[simp] theorem Dev.giveCells_ctx (m n : Nat) (x : Nat) : (d.giveCells m n).ctx x = d.ctx x := by simp [Dev.ctx]
@[simp] theorem Dev.giveCells_cmd (m n : Nat) (x : Nat) : (d.giveCells m n).cmd x = d.cmd x := by simp [Dev.cmd]
@[simp] theorem Dev.giveCells_sw (m n : Nat) (x : Fin 16) : (d.giveCells m n).sw x = d.sw x := by simp [Dev.sw]
@[simp] theorem Dev.giveCells_src (m n : Nat) (x : Nat) : (d.giveCells m n).src x = d.src x := by simp [Dev.src]
@[simp] theorem Dev.giveCells_pathReg (m n : Nat) (x : ReqPath) (y : Nat) : (d.giveCells m n).pathReg x y = d.pathReg x y := by simp [Dev.pathReg]

/-! ### What an update does to its own part -/

@[simp] theorem Dev.updPort_port (p : PortId) (f : PortSt → PortSt) : (d.updPort p f).port p = f (d.port p) := by
  cases p <;> rfl

theorem Dev.updPort_port_ne (p q : PortId) (f : PortSt → PortSt) (h : p ≠ q) :
    (d.updPort p f).port q = d.port q := by
  cases p <;> cases q <;> first | rfl | exact absurd rfl h

theorem Dev.enqueue_port (p : PortId) (e : TxEnt) :
    (d.enqueue p e).port p = { d.port p with txq := (d.port p).txq ++ [e] } := by
  simp [Dev.enqueue]

theorem Dev.enqueue_port_ne (p q : PortId) (e : TxEnt) (h : p ≠ q) : (d.enqueue p e).port q = d.port q :=
  d.updPort_port_ne p q _ h

@[simp] theorem Dev.setSw_sw (n : Fin 16) (s : Swath) : (d.setSw n s).sw n = s := by
  simp [Dev.setSw, Dev.sw, Vector.get, Fin.cast]

theorem Dev.setSw_sw_ne (n m : Fin 16) (s : Swath) (h : n ≠ m) : (d.setSw n s).sw m = d.sw m := by
  have : n.val ≠ m.val := fun e => h (Fin.ext e)
  simp [Dev.setSw, Dev.sw, Vector.get, Fin.cast, this]

@[simp] theorem Dev.updSw_sw (n : Fin 16) (f : Swath → Swath) : (d.updSw n f).sw n = f (d.sw n) := by
  simp [Dev.updSw]

theorem Dev.updSw_sw_ne (n m : Fin 16) (f : Swath → Swath) (h : n ≠ m) : (d.updSw n f).sw m = d.sw m := by
  simp [Dev.updSw, d.setSw_sw_ne n m _ h]

@[simp] theorem Dev.setCtx_ctx (i : Nat) (c : Ctx) : (d.setCtx i c).ctx i = some c := by
  simp [Dev.setCtx, Dev.ctx, look_put]

theorem Dev.setCtx_ctx_ne (i j : Nat) (c : Ctx) (h : i ≠ j) : (d.setCtx i c).ctx j = d.ctx j := by
  simp [Dev.setCtx, Dev.ctx, look_put, h]

@[simp] theorem Dev.updCtx_ctx (i : Nat) (f : Ctx → Ctx) : (d.updCtx i f).ctx i = (d.ctx i).map f := by
  simp [Dev.updCtx, Dev.ctx, look_adjust]

theorem Dev.updCtx_ctx_ne (i j : Nat) (f : Ctx → Ctx) (h : i ≠ j) : (d.updCtx i f).ctx j = d.ctx j := by
  simp [Dev.updCtx, Dev.ctx, look_adjust, h]

@[simp] theorem Dev.freeCtx_ctx (i : Nat) : (d.freeCtx i).ctx i = none := by
  simp [Dev.freeCtx, Dev.ctx, look_del]

theorem Dev.freeCtx_ctx_ne (i j : Nat) (h : i ≠ j) : (d.freeCtx i).ctx j = d.ctx j := by
  simp [Dev.freeCtx, Dev.ctx, look_del, h]

@[simp] theorem Dev.updCmd_cmd (i : Nat) (f : Cmd → Cmd) : (d.updCmd i f).cmd i = (d.cmd i).map f := by
  simp [Dev.updCmd, Dev.updDisp, Dev.cmd, look_adjust]

theorem Dev.updCmd_cmd_ne (i j : Nat) (f : Cmd → Cmd) (h : i ≠ j) : (d.updCmd i f).cmd j = d.cmd j := by
  simp [Dev.updCmd, Dev.updDisp, Dev.cmd, look_adjust, h]

@[simp] theorem Dev.dropCmd_cmd (i : Nat) : (d.dropCmd i).cmd i = none := by
  unfold Dev.dropCmd; simp only; split <;> simp [Dev.vcSweep, Dev.updSw, Dev.setSw, Dev.updDisp, Dev.cmd, look_del]

theorem Dev.dropCmd_cmd_ne (i j : Nat) (h : i ≠ j) : (d.dropCmd i).cmd j = d.cmd j := by
  unfold Dev.dropCmd; simp only; split <;> simp [Dev.vcSweep, Dev.updSw, Dev.setSw, Dev.updDisp, Dev.cmd, look_del, h]

@[simp] theorem Dev.setSrc_src (k : Nat) (x : IrqSrc) : (d.setSrc k x).src k = x := by
  simp [Dev.setSrc, Dev.src, lookD_putD]

theorem Dev.setSrc_src_ne (k j : Nat) (x : IrqSrc) (h : k ≠ j) : (d.setSrc k x).src j = d.src j := by
  simp [Dev.setSrc, Dev.src, lookD_putD, h]

/-- After an event the source's event bit is set and its latch is clear (R391). -/
theorem Dev.raise_src (k : Nat) :
    (d.raise k).src k = { countAssert (d.src k) with event := true, latch := false } := by
  simp [Dev.raise]

theorem Dev.raise_src_ne (k j : Nat) (h : k ≠ j) : (d.raise k).src j = d.src j := d.setSrc_src_ne k j _ h

/-- A completed source has left SERVICE; its latch is set when it was asserted meanwhile (R396) and its signal is
low (R391). -/
theorem Dev.completeSrc_src (k : Nat) :
    (d.completeSrc k).src k =
      { d.src k with service := false, by_ := 0, latch := ((d.src k).latch || (d.src k).events != 0) && !d.signal k } := by
  simp [Dev.completeSrc]

theorem Dev.completeSrc_src_ne (k j : Nat) (h : k ≠ j) : (d.completeSrc k).src j = d.src j :=
  d.setSrc_src_ne k j _ h

/-- A report either enters the intake as the spec lays it out, or counts as lost (R502). -/
theorem Dev.report_cases (c u s v w : Nat) :
    (d.report c u s v w = d.loseEvent) ∨
    (d.report c u s v w = { d with evr := { d.evr with intake := d.evr.intake ++
      [⟨c, u, s, v % 2 ^ 32, w % 2 ^ 32, d.cal.tick, !d.trusted⟩] } }) := by
  unfold Dev.report; split
  · exact Or.inl rfl
  · exact Or.inr rfl

theorem Dev.loseEvent_reg (a : Nat) (h : a ≠ 0x30120) : d.loseEvent.reg a = d.reg a := by
  have : Base.cal + F.EVR_LOST_COUNT.off ≠ a := by simp [Base.cal, F.EVR_LOST_COUNT]; omega
  exact Dev.reg_tally_ne d _ _ _ _ this

/-- A report changes no register but the count of lost events. -/
theorem Dev.report_reg (c u s v w a : Nat) (h : a ≠ 0x30120) : (d.report c u s v w).reg a = d.reg a := by
  rcases d.report_cases c u s v w with e | e <;> rw [e]
  · exact d.loseEvent_reg a h
  · rfl

theorem Dev.report_fld (c u s v w b : Nat) (f : Fld) (h : b + f.off ≠ 0x30120) :
    (d.report c u s v w).fld b f = d.fld b f := by
  simp [Dev.fld, d.report_reg _ _ _ _ _ _ h]

end Sys2Proof.Machine
end

