-- ==== Sys2Proof/Laws/Frames.lean ====
section
/-!
SUPPORT. Frames of the shared operations: the register fields, interrupt sources and parts of the drive
each may change. A command's frame follows by composing them.
-/
namespace Sys2Proof.Machine

/-! ### Completion -/

theorem completes_live {c : Instr} {s : State} {f : Dev → Dev} {P : Dev → Prop} (ha : s.alive)
    (he : exec c s = s.live f) (h : P (f s.dev)) : Completes c s P := by
  refine ⟨f s.dev, ?_, h⟩
  rw [he]
  have : s.dev.alive = true := ha
  simp [State.live, State.act, this]

theorem completes_act {c : Instr} {s : State} {f : Dev → Dev} {P : Dev → Prop}
    (he : exec c s = s.act f) (h : P (f s.dev)) : Completes c s P :=
  ⟨f s.dev, by rw [he]; rfl, h⟩

/-! ### Fields -/

theorem Dev.OnlyFlds.refl (d : Dev) (l : List (Nat × Fld)) : d.OnlyFlds d l := fun _ _ _ => rfl

theorem Dev.OnlyFlds.of_regs {d e : Dev} {l : List (Nat × Fld)} (h : e.regs = d.regs) : d.OnlyFlds e l := by
  intro c g _; simp [Dev.fld, Dev.reg, h]

theorem Dev.OnlyFlds.trans {d e f : Dev} {l : List (Nat × Fld)} (h1 : d.OnlyFlds e l) (h2 : e.OnlyFlds f l) :
    d.OnlyFlds f l := fun c g h => (h2 c g h).trans (h1 c g h)

theorem Dev.OnlyFlds.mono {d e : Dev} {l m : List (Nat × Fld)} (h : d.OnlyFlds e l) (hs : ∀ x ∈ l, x ∈ m) :
    d.OnlyFlds e m := fun c g hc => h c g fun x hx => hc x (hs x hx)

theorem Dev.OnlyFlds.setFld {d e : Dev} {l : List (Nat × Fld)} (h : d.OnlyFlds e l) {b : Nat} {f : Fld}
    {v : Nat} (hm : (b, f) ∈ l) : d.OnlyFlds (e.setFld b f v) l := by
  refine h.trans ?_
  intro c g hc
  have hn := hc (b, f) hm
  simp only [overlaps] at hn
  unfold Dev.fld Dev.setFld
  rw [Dev.reg_setReg]
  split
  · rename_i ho
    rw [← ho]
    apply bitsOf_withBits_other
    rcases Nat.lt_or_ge f.lo (g.lo + g.width) with h1 | h1
    · rcases Nat.lt_or_ge g.lo (f.lo + f.width) with h2 | h2
      · exact absurd ⟨ho, h1, h2⟩ hn
      · exact Or.inl h2
    · exact Or.inr h1
  · rfl

/-- A whole register written. -/
theorem Dev.OnlyFlds.setReg {d e : Dev} {l : List (Nat × Fld)} (h : d.OnlyFlds e l) {a b : Nat} {f : Fld}
    {w : Word} (hm : (b, f) ∈ l) (ha : b + f.off = a) (h0 : f.lo = 0) (hw : f.width = 32) :
    d.OnlyFlds (e.setReg a w) l := by
  refine h.trans ?_
  intro c g hc
  have hn := hc (b, f) hm
  simp only [overlaps, h0, hw] at hn
  unfold Dev.fld
  rw [Dev.reg_setReg]
  split
  · rename_i ho
    apply Nat.eq_of_testBit_eq
    intro i
    rw [testBit_bitsOf, testBit_bitsOf]
    rcases Nat.eq_zero_or_pos g.width with h1 | h1
    · simp [h1]
    · have h2 : 32 ≤ g.lo := by
        apply Nat.le_of_not_lt; intro h2; exact hn ⟨by omega, by omega, by omega⟩
      simp [BitVec.getLsbD_of_ge _ (g.lo + i) (show 32 ≤ g.lo + i by omega)]
  · rfl

theorem Dev.OnlyFlds.countTo {d e : Dev} {l : List (Nat × Fld)} (h : d.OnlyFlds e l) {a b : Nat} {f : Fld}
    {w : Word} (hm : (b, f) ∈ l) (ha : b + f.off = a) (h0 : f.lo = 0) (hw : f.width = 32) :
    d.OnlyFlds (e.countTo a w) l :=
  (h.setReg (w := w) hm ha h0 hw).trans fun c g _ => by simp [Dev.fld]

theorem Dev.OnlyFlds.bump {d e : Dev} {l : List (Nat × Fld)} (h : d.OnlyFlds e l) {b : Nat} {f : Fld}
    (hm : (b, f) ∈ l) (h0 : f.lo = 0) (hw : f.width = 32) : d.OnlyFlds (e.bump b f) l :=
  h.countTo hm rfl h0 hw

theorem Dev.OnlyFlds.bumpBy {d e : Dev} {l : List (Nat × Fld)} (h : d.OnlyFlds e l) {b n : Nat} {f : Fld}
    (hm : (b, f) ∈ l) (h0 : f.lo = 0) (hw : f.width = 32) : d.OnlyFlds (e.bumpBy b f n) l :=
  h.countTo hm rfl h0 hw

theorem Dev.OnlyFlds.tally {d e : Dev} {l : List (Nat × Fld)} (h : d.OnlyFlds e l) {b n : Nat} {f : Fld}
    (hm : (b, f) ∈ l) (h0 : f.lo = 0) (hw : f.width = 32) : d.OnlyFlds (e.tally b f n) l :=
  h.setReg hm rfl h0 hw

theorem Dev.OnlyFlds.same {d e f : Dev} {l : List (Nat × Fld)} (h : d.OnlyFlds e l) (hr : f.regs = e.regs) :
    d.OnlyFlds f l := h.trans (.of_regs hr)

theorem Dev.OnlyFlds.report {d e : Dev} {l : List (Nat × Fld)} (h : d.OnlyFlds e l) {c u s v w : Nat}
    (hm : lostFld ∈ l) : d.OnlyFlds (e.report c u s v w) l := by
  rcases e.report_cases c u s v w with q | q <;> rw [q]
  · exact (h.tally (b := Base.cal) (f := F.EVR_LOST_COUNT) hm rfl rfl).same rfl
  · exact h.same rfl

theorem Dev.OnlyFlds.setCond {d e : Dev} {l : List (Nat × Fld)} (h : d.OnlyFlds e l) {b v k : Nat} {f : Fld}
    (hm : (b, f) ∈ l) : d.OnlyFlds (e.setCond b f v k) l := by
  unfold Dev.setCond; simp only; split
  · exact (h.setFld hm).same rfl
  · exact h.setFld hm

theorem Dev.OnlyFlds.portCount {d e : Dev} {l : List (Nat × Fld)} (h : d.OnlyFlds e l) {p : PortId} {k n : Nat}
    (h1 : (Base.prt p, F.PRT_CNT_COUNT.at k) ∈ l) (h2 : (Base.prt p, F.PRT_CNT_HALF_HALF) ∈ l) :
    d.OnlyFlds (e.portCount p k n) l := by
  unfold Dev.portCount; simp only; split
  · exact (h.tally h1 rfl rfl).setCond h2
  · exact h.tally h1 rfl rfl

/-! ### Values -/

theorem Dev.setCond_fld (d : Dev) (b v k : Nat) (f : Fld) (h : f.lo + f.width ≤ 32) :
    (d.setCond b f v k).fld b f = v % 2 ^ f.width := by
  unfold Dev.setCond; simp only; split <;> simp [Dev.fld_setFld_same, h]

theorem Dev.setCond_fld_apart (d : Dev) (b v k : Nat) (f g : Fld) (h : f.apart g = true) :
    (d.setCond b f v k).fld b g = d.fld b g := by
  unfold Dev.setCond; simp only; split <;> simp [Dev.fld_setFld_apart, h]

theorem Dev.portCount_fld (d : Dev) (p : PortId) (k n : Nat) (hk : k < 32) :
    (d.portCount p k n).fld (Base.prt p) (F.PRT_CNT_COUNT.at k) =
      (d.fld (Base.prt p) (F.PRT_CNT_COUNT.at k) + n) % 2 ^ 32 := by
  have hb : (d.tally (Base.prt p) (F.PRT_CNT_COUNT.at k) n).fld (Base.prt p) (F.PRT_CNT_COUNT.at k) =
      (d.fld (Base.prt p) (F.PRT_CNT_COUNT.at k) + n) % 2 ^ 32 := by
    simp [Dev.fld, Dev.tally, bitsOf, Fld.at, F.PRT_CNT_COUNT, BitVec.toNat_add]
  unfold Dev.portCount; simp only; split
  · rw [Dev.setCond_fld_apart, hb]
    simp [Fld.apart, Fld.at, F.PRT_CNT_COUNT, F.PRT_CNT_HALF_HALF]; omega
  · exact hb

/-! ### Sources -/

theorem Dev.OnlySrcs.refl (d : Dev) (l : List Nat) : d.OnlySrcs d l := fun _ _ => rfl

theorem Dev.OnlySrcs.trans {d e f : Dev} {l : List Nat} (h1 : d.OnlySrcs e l) (h2 : e.OnlySrcs f l) :
    d.OnlySrcs f l := fun k h => (h2 k h).trans (h1 k h)

theorem Dev.OnlySrcs.same {d e f : Dev} {l : List Nat} (h : d.OnlySrcs e l) (hr : f.irq = e.irq) :
    d.OnlySrcs f l := h.trans fun k _ => by simp [Dev.src, hr]

theorem Dev.OnlySrcs.setSrc {d e : Dev} {l : List Nat} (h : d.OnlySrcs e l) {k : Nat} {x : IrqSrc}
    (hm : k ∈ l) : d.OnlySrcs (e.setSrc k x) l :=
  h.trans fun j hj => e.setSrc_src_ne k j x fun q => hj (q ▸ hm)

theorem Dev.OnlySrcs.raise {d e : Dev} {l : List Nat} (h : d.OnlySrcs e l) {k : Nat} (hm : k ∈ l) :
    d.OnlySrcs (e.raise k) l := h.setSrc hm

theorem Dev.OnlySrcs.setCond {d e : Dev} {l : List Nat} (h : d.OnlySrcs e l) {b v k : Nat} {f : Fld}
    (hm : k ∈ l) : d.OnlySrcs (e.setCond b f v k) l := by
  unfold Dev.setCond; simp only; split
  · exact (h.same (f := e.setFld b f v) rfl).setSrc hm
  · exact h.same rfl

theorem Dev.OnlySrcs.report {d e : Dev} {l : List Nat} (h : d.OnlySrcs e l) {c u s v w : Nat} :
    d.OnlySrcs (e.report c u s v w) l := h.same (by simp)

theorem Dev.OnlySrcs.portCount {d e : Dev} {l : List Nat} (h : d.OnlySrcs e l) {p : PortId} {k n : Nat}
    (hm : 0x01 + 8 * p.idx ∈ l) : d.OnlySrcs (e.portCount p k n) l := by
  unfold Dev.portCount; simp only; split
  · exact (h.same (f := e.tally _ _ _) rfl).setCond hm
  · exact h.same rfl

/-! ### Updates that touch no register -/

theorem Dev.OnlyFlds.raise {d e : Dev} {l : List (Nat × Fld)} (h : d.OnlyFlds e l) {k : Nat} :
    d.OnlyFlds (e.raise k) l := h.same (by simp)

theorem Dev.OnlyFlds.pulse {d e : Dev} {l : List (Nat × Fld)} (h : d.OnlyFlds e l) {k : Nat} :
    d.OnlyFlds (e.pulse k) l := h.same (by simp)

theorem Dev.OnlyFlds.condRose {d e : Dev} {l : List (Nat × Fld)} (h : d.OnlyFlds e l) {k : Nat} :
    d.OnlyFlds (e.condRose k) l := h.same (by simp)

theorem Dev.OnlyFlds.completeSrc {d e : Dev} {l : List (Nat × Fld)} (h : d.OnlyFlds e l) {k : Nat} :
    d.OnlyFlds (e.completeSrc k) l := h.same (by simp)

theorem Dev.OnlyFlds.setSrc {d e : Dev} {l : List (Nat × Fld)} (h : d.OnlyFlds e l) {k : Nat} {x : IrqSrc} :
    d.OnlyFlds (e.setSrc k x) l := h.same (by simp)

theorem Dev.OnlyFlds.updPort {d e : Dev} {l : List (Nat × Fld)} (h : d.OnlyFlds e l) {p : PortId} {g : PortSt → PortSt} :
    d.OnlyFlds (e.updPort p g) l := h.same (by simp)

theorem Dev.OnlyFlds.enqueue {d e : Dev} {l : List (Nat × Fld)} (h : d.OnlyFlds e l) {p : PortId} {x : TxEnt} :
    d.OnlyFlds (e.enqueue p x) l := h.same (by simp)

theorem Dev.OnlyFlds.updSw {d e : Dev} {l : List (Nat × Fld)} (h : d.OnlyFlds e l) {n : Fin 16} {g : Swath → Swath} :
    d.OnlyFlds (e.updSw n g) l := h.same (by simp)

theorem Dev.OnlyFlds.updDisp {d e : Dev} {l : List (Nat × Fld)} (h : d.OnlyFlds e l) {g : Disp → Disp} :
    d.OnlyFlds (e.updDisp g) l := h.same (by simp)

theorem Dev.OnlyFlds.updCmd {d e : Dev} {l : List (Nat × Fld)} (h : d.OnlyFlds e l) {c : Nat} {g : Cmd → Cmd} :
    d.OnlyFlds (e.updCmd c g) l := h.same (by simp)

theorem Dev.OnlyFlds.dropCmd {d e : Dev} {l : List (Nat × Fld)} (h : d.OnlyFlds e l) {c : Nat} :
    d.OnlyFlds (e.dropCmd c) l := h.same (by simp)

theorem Dev.OnlyFlds.updCtx {d e : Dev} {l : List (Nat × Fld)} (h : d.OnlyFlds e l) {i : Nat} {g : Ctx → Ctx} :
    d.OnlyFlds (e.updCtx i g) l := h.same (by simp)

theorem Dev.OnlyFlds.setCtx {d e : Dev} {l : List (Nat × Fld)} (h : d.OnlyFlds e l) {i : Nat} {c : Ctx} :
    d.OnlyFlds (e.setCtx i c) l := h.same (by simp)

theorem Dev.OnlyFlds.freeCtx {d e : Dev} {l : List (Nat × Fld)} (h : d.OnlyFlds e l) {i : Nat} :
    d.OnlyFlds (e.freeCtx i) l := h.same (by simp)

theorem Dev.OnlyFlds.setPathReg {d e : Dev} {l : List (Nat × Fld)} (h : d.OnlyFlds e l) {q : ReqPath} {a : Nat} {w : Word} :
    d.OnlyFlds (e.setPathReg q a w) l := h.same (by simp)

theorem Dev.OnlyFlds.giveCells {d e : Dev} {l : List (Nat × Fld)} (h : d.OnlyFlds e l) {m n : Nat} :
    d.OnlyFlds (e.giveCells m n) l := h.same (by simp)

theorem Dev.OnlyFlds.flowCheckPort {d e : Dev} {l : List (Nat × Fld)} (h : d.OnlyFlds e l) {p : PortId} :
    d.OnlyFlds (e.flowCheckPort p) l := h.same (by simp)

/-! ### Updates that touch no source -/

theorem Dev.OnlySrcs.updPort {d e : Dev} {l : List Nat} (h : d.OnlySrcs e l) {p : PortId} {g : PortSt → PortSt} :
    d.OnlySrcs (e.updPort p g) l := h.same (by simp)

theorem Dev.OnlySrcs.enqueue {d e : Dev} {l : List Nat} (h : d.OnlySrcs e l) {p : PortId} {x : TxEnt} :
    d.OnlySrcs (e.enqueue p x) l := h.same (by simp)

theorem Dev.OnlySrcs.updSw {d e : Dev} {l : List Nat} (h : d.OnlySrcs e l) {n : Fin 16} {g : Swath → Swath} :
    d.OnlySrcs (e.updSw n g) l := h.same (by simp)

theorem Dev.OnlySrcs.updDisp {d e : Dev} {l : List Nat} (h : d.OnlySrcs e l) {g : Disp → Disp} :
    d.OnlySrcs (e.updDisp g) l := h.same (by simp)

theorem Dev.OnlySrcs.updCmd {d e : Dev} {l : List Nat} (h : d.OnlySrcs e l) {c : Nat} {g : Cmd → Cmd} :
    d.OnlySrcs (e.updCmd c g) l := h.same (by simp)

theorem Dev.OnlySrcs.dropCmd {d e : Dev} {l : List Nat} (h : d.OnlySrcs e l) {c : Nat} :
    d.OnlySrcs (e.dropCmd c) l := h.same (by simp)

theorem Dev.OnlySrcs.updCtx {d e : Dev} {l : List Nat} (h : d.OnlySrcs e l) {i : Nat} {g : Ctx → Ctx} :
    d.OnlySrcs (e.updCtx i g) l := h.same (by simp)

theorem Dev.OnlySrcs.setCtx {d e : Dev} {l : List Nat} (h : d.OnlySrcs e l) {i : Nat} {c : Ctx} :
    d.OnlySrcs (e.setCtx i c) l := h.same (by simp)

theorem Dev.OnlySrcs.freeCtx {d e : Dev} {l : List Nat} (h : d.OnlySrcs e l) {i : Nat} :
    d.OnlySrcs (e.freeCtx i) l := h.same (by simp)

theorem Dev.OnlySrcs.setPathReg {d e : Dev} {l : List Nat} (h : d.OnlySrcs e l) {q : ReqPath} {a : Nat} {w : Word} :
    d.OnlySrcs (e.setPathReg q a w) l := h.same (by simp)

theorem Dev.OnlySrcs.giveCells {d e : Dev} {l : List Nat} (h : d.OnlySrcs e l) {m n : Nat} :
    d.OnlySrcs (e.giveCells m n) l := h.same (by simp)

theorem Dev.OnlySrcs.flowCheckPort {d e : Dev} {l : List Nat} (h : d.OnlySrcs e l) {p : PortId} :
    d.OnlySrcs (e.flowCheckPort p) l := h.same (by simp)

theorem Dev.OnlySrcs.setFld {d e : Dev} {l : List Nat} (h : d.OnlySrcs e l) {b v : Nat} {f : Fld} :
    d.OnlySrcs (e.setFld b f v) l := h.same (by simp)

/-- A count touches no source but the half-range source of its register. -/
theorem Dev.OnlySrcs.countTo {d e : Dev} {l : List Nat} (h : d.OnlySrcs e l) {a : Nat} {w : Word}
    (hm : ∀ k, halfSrc a = some k → k ∈ l) : d.OnlySrcs (e.countTo a w) l := by
  rcases e.countTo_cases a w with q | ⟨k, hk, q⟩ <;> rw [q]
  · exact h.same rfl
  · exact (h.same (f := e.setReg a w) rfl).setSrc (hm k hk)

theorem Dev.OnlySrcs.bump {d e : Dev} {l : List Nat} (h : d.OnlySrcs e l) {b : Nat} {f : Fld}
    (hm : ∀ k, halfSrc (b + f.off) = some k → k ∈ l) : d.OnlySrcs (e.bump b f) l := h.countTo hm

theorem Dev.OnlySrcs.bumpBy {d e : Dev} {l : List Nat} (h : d.OnlySrcs e l) {b n : Nat} {f : Fld}
    (hm : ∀ k, halfSrc (b + f.off) = some k → k ∈ l) : d.OnlySrcs (e.bumpBy b f n) l := h.countTo hm

theorem Dev.OnlySrcs.setReg {d e : Dev} {l : List Nat} (h : d.OnlySrcs e l) {a : Nat} {w : Word} :
    d.OnlySrcs (e.setReg a w) l := h.same (by simp)

theorem Dev.OnlySrcs.completeSrc {d e : Dev} {l : List Nat} (h : d.OnlySrcs e l) {k : Nat} (hm : k ∈ l) :
    d.OnlySrcs (e.completeSrc k) l := h.setSrc hm

theorem Dev.OnlySrcs.pulse {d e : Dev} {l : List Nat} (h : d.OnlySrcs e l) {k : Nat} (hm : k ∈ l) :
    d.OnlySrcs (e.pulse k) l := h.setSrc hm

/-! ### Reports -/

theorem Dev.report_reported (d : Dev) (c u s v w : Nat) : d.Reported (d.report c u s v w) c u s v w := by
  rcases d.report_cases c u s v w with q | q <;> rw [q]
  · exact Or.inr (by simp [Dev.loseEvent])
  · exact Or.inl ⟨_, by simp; exact Or.inr rfl, rfl, rfl, rfl, rfl, rfl⟩

theorem Dev.Reported.evr {d e d' e' : Dev} {c u s v w : Nat} (h : d.Reported d' c u s v w)
    (h1 : e.evr = d.evr) (h2 : e'.evr = d'.evr) : e.Reported e' c u s v w := by
  unfold Dev.Reported at *; rw [h1, h2]; exact h

theorem Dev.Reported.of_report {d e : Dev} (h : e.evr = d.evr) {c u s v w : Nat} :
    d.Reported (e.report c u s v w) c u s v w := (e.report_reported c u s v w).evr h.symm rfl

theorem Dev.report_intake (d : Dev) (c u s v w : Nat) :
    (∀ e ∈ d.evr.intake, e ∈ (d.report c u s v w).evr.intake) ∧
      d.evr.lostPend ≤ (d.report c u s v w).evr.lostPend := by
  rcases d.report_cases c u s v w with q | q <;> rw [q]
  · exact ⟨fun e h => by simpa [Dev.loseEvent] using h, by simp [Dev.loseEvent]⟩
  · exact ⟨fun e h => by simp [h], by simp⟩

/-! ### Whole drives -/

theorem Dev.eq_of {d e : Dev} (h1 : d.regs = e.regs) (h2 : d.prs = e.prs) (h3 : d.now = e.now)
    (h4 : d.freeNo = e.freeNo) (h5 : d.portA = e.portA) (h6 : d.portB = e.portB) (h7 : d.portC = e.portC)
    (h8 : d.pool = e.pool) (h9 : d.pool7 = e.pool7) (h10 : d.ses = e.ses) (h11 : d.disp = e.disp)
    (h12 : d.pol = e.pol) (h13 : d.irq = e.irq) (h14 : d.cal = e.cal) (h15 : d.evr = e.evr)
    (h16 : d.sws = e.sws) (h17 : d.pw = e.pw) (h18 : d.io = e.io) (h19 : d.boot = e.boot)
    (h20 : d.adm = e.adm) : d = e := by
  cases d; cases e; simp_all

end Sys2Proof.Machine
end

