-- ==== Sys2Proof/Laws/Dram.lean ====
section
/-!
SUPPORT. What the operations over a swath's DRAM channel may change: a placed or flipped beat changes the beats alone,
and a read of a granule changes the logs of the swath, its registers, its sources and what is reported. The same of
the read-back of a journal line.
-/
namespace Sys2Proof.Machine

/-! ### Beats -/

theorem Swath.setBeat_frame (s : Swath) (g b : Nat) (l : List Byte) :
    s.setBeat g b l = { s with dram := (s.setBeat g b l).dram } := rfl

/-- A beat that has been set reads as it was set. -/
theorem Swath.beatAt_setBeat (s : Swath) (g b : Nat) (l : List Byte) : (s.setBeat g b l).beatAt g b = l := by
  have h : (s.setBeat g b l).servedBy g = s.servedBy g := rfl
  have hd : (s.setBeat g b l).dram = put (beatNo (s.servedBy g) b) l s.dram := rfl
  simp [Swath.beatAt, h, hd, look_put]

theorem Swath.upset_frame (s : Swath) (g b : Nat) (err : List Byte) :
    s.upset g b err = { s with dram := (s.upset g b err).dram } := by
  unfold Swath.upset; split <;> rfl

theorem Swath.refilled_frame (s : Swath) (p : Nat → Bool) :
    s.refilled p =
      { s with dram := (s.refilled p).dram, ueSeen := (s.refilled p).ueSeen, ueOver := (s.refilled p).ueOver } := rfl

theorem Swath.logBeat_frame (s : Swath) (g dev src : Nat) :
    s.logBeat g dev src = { s with log := (s.logBeat g dev src).log, logAt := (s.logBeat g dev src).logAt } := by
  unfold Swath.logBeat; split <;> rfl

/-! ### Reads -/

/-- A drive without what reads of DRAM may change: registers, sources, reports and the swaths. -/
def Dev.bare (d : Dev) : Dev :=
  { d with
    regs := [], irq := { d.irq with src := [] }, sws := Dev.reset.sws
    evr := { d.evr with intake := [], lostPend := 0 } }

/-- A swath without its memory logs. -/
def Swath.bare (s : Swath) : Swath := { s with log := [], logAt := 0, ueSeen := [], cl := [] }

/-- Nothing changes but the memory logs of a swath, registers, sources and what is reported. -/
def Dev.OnlyMemLogs (d e : Dev) (n : Fin 16) : Prop :=
  e.bare = d.bare ∧ (∀ m, m ≠ n → e.sw m = d.sw m) ∧ (e.sw n).bare = (d.sw n).bare

theorem Dev.OnlyMemLogs.refl (d : Dev) (n : Fin 16) : d.OnlyMemLogs d n := ⟨rfl, fun _ _ => rfl, rfl⟩

theorem Dev.OnlyMemLogs.trans {d e f : Dev} {n : Fin 16} (h : d.OnlyMemLogs e n) (k : e.OnlyMemLogs f n) :
    d.OnlyMemLogs f n :=
  ⟨k.1.trans h.1, fun m hm => (k.2.1 m hm).trans (h.2.1 m hm), k.2.2.trans h.2.2⟩

/-- The parts of the drive that stay. -/
theorem Dev.OnlyMemLogs.keeps {d e : Dev} {n : Fin 16} (h : d.OnlyMemLogs e n) :
    e.ses = d.ses ∧ e.disp = d.disp ∧ e.boot = d.boot ∧ e.pw = d.pw ∧ e.io = d.io ∧ e.adm = d.adm ∧
      (e.sw n).keys = (d.sw n).keys ∧ (e.sw n).map = (d.sw n).map ∧ (e.sw n).dram = (d.sw n).dram :=
  ⟨(congrArg Dev.ses h.1 : e.bare.ses = d.bare.ses),
    (congrArg Dev.disp h.1 : e.bare.disp = d.bare.disp),
    (congrArg Dev.boot h.1 : e.bare.boot = d.bare.boot),
    (congrArg Dev.pw h.1 : e.bare.pw = d.bare.pw),
    (congrArg Dev.io h.1 : e.bare.io = d.bare.io),
    (congrArg Dev.adm h.1 : e.bare.adm = d.bare.adm),
    (congrArg Swath.keys h.2.2 : (e.sw n).bare.keys = (d.sw n).bare.keys),
    (congrArg Swath.map h.2.2 : (e.sw n).bare.map = (d.sw n).bare.map),
    (congrArg Swath.dram h.2.2 : (e.sw n).bare.dram = (d.sw n).bare.dram)⟩

/-- A change that leaves the swaths and the bare drive alone. -/
theorem Dev.OnlyMemLogs.of_eq {d e : Dev} (n : Fin 16) (h : e.bare = d.bare) (hs : e.sws = d.sws) :
    d.OnlyMemLogs e n := by
  have hw (m : Fin 16) : e.sw m = d.sw m := by unfold Dev.sw; rw [hs]
  exact ⟨h, fun m _ => hw m, by rw [hw]⟩

theorem Dev.OnlyMemLogs.setFld (d : Dev) (n : Fin 16) (b v : Nat) (f : Fld) : d.OnlyMemLogs (d.setFld b f v) n :=
  .of_eq n rfl rfl

theorem Dev.OnlyMemLogs.raise (d : Dev) (n : Fin 16) (k : Nat) : d.OnlyMemLogs (d.raise k) n := .of_eq n rfl rfl

theorem Dev.OnlyMemLogs.setCond (d : Dev) (n : Fin 16) (b v k : Nat) (f : Fld) :
    d.OnlyMemLogs (d.setCond b f v k) n := by
  unfold Dev.setCond
  simp only
  split <;> exact .of_eq n rfl rfl

theorem Dev.OnlyMemLogs.bump (d : Dev) (n : Fin 16) (b : Nat) (f : Fld) : d.OnlyMemLogs (d.bump b f) n := by
  unfold Dev.bump Dev.countTo
  simp only
  split
  · split
    · split <;> exact .of_eq n rfl rfl
    · exact .of_eq n rfl rfl
  · exact .of_eq n rfl rfl

theorem Dev.OnlyMemLogs.report (d : Dev) (n : Fin 16) (c u s v w : Nat) : d.OnlyMemLogs (d.report c u s v w) n := by
  rcases d.report_cases c u s v w with q | q <;> rw [q]
  · exact .of_eq n rfl rfl
  · exact .of_eq n rfl rfl

theorem Dev.OnlyMemLogs.updSw (d : Dev) (n : Fin 16) {f : Swath → Swath}
    (h : ∀ s, (f s).bare = s.bare) : d.OnlyMemLogs (d.updSw n f) n :=
  ⟨rfl, fun m hm => d.updSw_sw_ne n m f (Ne.symm hm), by simpa using h (d.sw n)⟩

theorem Dev.corrected_frame (d : Dev) (n : Fin 16) (g dev src : Nat) : d.OnlyMemLogs (d.corrected n g dev src) n := by
  have h1 : d.OnlyMemLogs (d.updSw n fun s => s.logBeat g dev src) n :=
    .updSw d n fun s => by rw [s.logBeat_frame]; rfl
  have hc (e : Dev) : e.OnlyMemLogs (e.countAndLog n g dev) n := by
    unfold Dev.countAndLog
    simp only
    split
    · exact .refl e n
    · split
      · exact .setFld e n ..
      · split
        · exact ((Dev.OnlyMemLogs.setFld e n ..).trans
            (.updSw _ n (f := fun s => { s with cl := s.cl ++ [(g, dev)] }) fun _ => rfl)).trans (.raise _ n _)
        · exact (Dev.OnlyMemLogs.setFld e n ..).trans (.setFld _ n ..)
  have hm (e : Dev) : e.OnlyMemLogs (e.markCheck n dev) n := by
    unfold Dev.markCheck
    simp only
    split
    · exact (((Dev.OnlyMemLogs.setFld e n ..).trans (.setFld _ n ..)).trans (.raise _ n _)).trans (.report _ n ..)
    · exact .refl e n
  exact ((h1.trans (.bump _ n ..)).trans (hc _)).trans (hm _)

theorem Dev.latchUe_frame (d : Dev) (n : Fin 16) (g beat master src : Nat) :
    d.OnlyMemLogs (d.latchUe n g beat master src) n := by
  have h1 : d.OnlyMemLogs (d.updSw n fun s => { s.logBeat g 15 src with ueSeen := insertNat g s.ueSeen }) n :=
    .updSw d n fun s => by rw [s.logBeat_frame]; rfl
  unfold Dev.latchUe
  simp only
  split
  · exact h1
  · exact ((((h1.trans (.setFld _ n ..)).trans (.setFld _ n ..)).trans (.setFld _ n ..)).trans
      (.setFld _ n ..)).trans (.setCond _ n ..)

/-- A read of a granule changes the swath's logs, registers, sources and what is reported, and nothing else. -/
theorem Dev.readGranule_frame (d : Dev) (n : Fin 16) (g master src : Nat) :
    d.OnlyMemLogs (d.readGranule n g master src) n := by
  unfold Dev.readGranule
  generalize d.granuleRead n g = l
  induction l generalizing d with
  | nil => exact .refl d n
  | cons f t ih =>
    refine .trans (?_ : d.OnlyMemLogs (d.beatFound n g master src f) n) (ih _)
    unfold Dev.beatFound
    split
    · exact .refl d n
    · exact d.corrected_frame n ..
    · exact d.latchUe_frame n ..

/-! ### The read-back of a journal line (R373) -/

theorem Dev.bare_bump (d : Dev) (b : Nat) (f : Fld) : (d.bump b f).bare = d.bare ∧ (d.bump b f).sws = d.sws := by
  unfold Dev.bump Dev.countTo
  simp only
  split
  · split
    · split <;> exact ⟨rfl, rfl⟩
    · exact ⟨rfl, rfl⟩
  · exact ⟨rfl, rfl⟩

theorem Dev.bare_raise (d : Dev) (k : Nat) : (d.raise k).bare = d.bare := rfl

theorem Dev.bare_report (d : Dev) (c u s v w : Nat) :
    (d.report c u s v w).bare = d.bare ∧ (d.report c u s v w).sws = d.sws := by
  rcases d.report_cases c u s v w with q | q <;> rw [q] <;> exact ⟨rfl, rfl⟩

theorem Swath.fallow_eta (s : Swath) (h : s.fallow = true) : { s with fallow := true } = s := by
  cases s; cases h; rfl

/-- Entering fallow changes the swath's fallow and mode, a source and what is reported. -/
theorem Dev.enterFallow_frame (d : Dev) (n : Fin 16) (why : Nat) :
    (d.enterFallow n why).bare = d.bare ∧ (∀ m, m ≠ n → (d.enterFallow n why).sw m = d.sw m) ∧
      (d.enterFallow n why).sw n =
        { d.sw n with fallow := true, mode := ((d.enterFallow n why).sw n).mode } := by
  unfold Dev.enterFallow Dev.reportSw
  split
  case isTrue hf =>
    have hs := (d.sw n).fallow_eta hf
    split
    · obtain ⟨a, b⟩ := d.bare_report 0x0503 (Unit.swath n) 4 why 0
      have hw (m : Fin 16) : (d.report 0x0503 (Unit.swath n) 4 why 0).sw m = d.sw m := by unfold Dev.sw; rw [b]
      exact ⟨a, fun m _ => hw m, by rw [hw]; exact hs.symm⟩
    · exact ⟨rfl, fun _ _ => rfl, hs.symm⟩
  case isFalse =>
    simp only
    generalize he : d.updSw n (fun s => { s with fallow := true, mode := 4 }) = e
    have hc : (e.condCheck d n 6).bare = e.bare ∧ (e.condCheck d n 6).sws = e.sws := by
      unfold Dev.condCheck
      split <;> exact ⟨rfl, rfl⟩
    obtain ⟨a, b⟩ := (e.condCheck d n 6).bare_report 0x0503 (Unit.swath n) 4 why 0
    have hw (m : Fin 16) : ((e.condCheck d n 6).report 0x0503 (Unit.swath n) 4 why 0).sw m = e.sw m := by
      unfold Dev.sw; rw [b, hc.2]
    have hn : e.sw n = { d.sw n with fallow := true, mode := 4 } := by rw [← he]; exact d.updSw_sw n _
    refine ⟨(a.trans hc.1).trans (by rw [← he]; rfl), fun m hm => ?_, ?_⟩
    · rw [hw, ← he]; exact d.updSw_sw_ne n m _ (Ne.symm hm)
    · rw [hw, hn]

/-- A read-back changes counters, a source, what is reported, and of its swath the spare lines left, fallow and
the mode. -/
theorem Dev.lineReadBack_frame (d : Dev) (n : Fin 16) (bits : Nat) :
    (d.lineReadBack n bits).bare = d.bare ∧ (∀ m, m ≠ n → (d.lineReadBack n bits).sw m = d.sw m) ∧
      (d.lineReadBack n bits).sw n = { d.sw n with
        spareLines := if bits ≤ 2 then (d.sw n).spareLines else (d.sw n).spareLines - 1
        fallow := ((d.lineReadBack n bits).sw n).fallow, mode := ((d.lineReadBack n bits).sw n).mode } := by
  unfold Dev.lineReadBack
  simp only
  generalize hx : (if bits = 0 then d else if bits ≤ 6 then d.bump (Base.sw n) F.SW_JM_CORR_COUNT
    else (d.bump (Base.sw n) F.SW_JM_UNCORR_COUNT).raise (privSw n 5)) = x
  have hb : x.bare = d.bare ∧ x.sws = d.sws := by
    rw [← hx]
    split
    · exact ⟨rfl, rfl⟩
    · split
      · exact d.bare_bump ..
      · obtain ⟨a, b⟩ := d.bare_bump (Base.sw n) F.SW_JM_UNCORR_COUNT
        exact ⟨(Dev.bare_raise _ _).trans a, b⟩
  have hxw (m : Fin 16) : x.sw m = d.sw m := by unfold Dev.sw; rw [hb.2]
  split
  · exact ⟨hb.1, fun m _ => hxw m, by rw [hxw]⟩
  · generalize he : x.updSw n (fun s => { s with spareLines := s.spareLines - 1 }) = e
    obtain ⟨h1, h2⟩ := e.bare_bump (Base.sw n) F.SW_JM_RETIRED_COUNT
    generalize hy : e.bump (Base.sw n) F.SW_JM_RETIRED_COUNT = y at h1 h2
    have hyb : y.bare = d.bare := (h1.trans (by rw [← he]; rfl)).trans hb.1
    have hyw (m : Fin 16) : y.sw m = e.sw m := by unfold Dev.sw; rw [h2]
    have hne (m : Fin 16) (hm : m ≠ n) : y.sw m = d.sw m := by
      rw [hyw, ← he, x.updSw_sw_ne n m _ (Ne.symm hm), hxw]
    have hn : y.sw n = { d.sw n with spareLines := (d.sw n).spareLines - 1 } := by
      rw [hyw, ← he, x.updSw_sw n _, hxw]
    split
    · obtain ⟨a, b, c⟩ := y.enterFallow_frame n 2
      exact ⟨a.trans hyb, fun m hm => (b m hm).trans (hne m hm), by rw [c, hn]⟩
    · exact ⟨hyb, hne, by rw [hn]⟩

/-- What is journaled is the operation, with its line read back where it has written a record. -/
theorem Dev.journaled_cases (d : Dev) (n : Fin 16) (al : Alloc) (f : Dev → Dev) :
    ((f d).sw n).rseq = (d.sw n).rseq ∧ d.journaled n al f = f d ∨
      ((f d).sw n).rseq ≠ (d.sw n).rseq ∧ d.journaled n al f = (f d).lineReadBack n al.line.val := by
  unfold Dev.journaled
  simp only
  split
  · exact .inl ⟨‹_›, rfl⟩
  · exact .inr ⟨‹_›, rfl⟩

end Sys2Proof.Machine
end

