-- ==== Sys2Proof/WellFormed.lean ====
section
/-!
DEFINITION. Which commands are well formed: every operand lies in the range the spec gives the thing it
names. The meanings are total and do not ask for it; a command outside these ranges names nothing the
drive has.
-/
namespace Sys2Proof

/-- Session IDs are 14 bits wide (Table 3-16). -/
def sidOk (sid : Nat) : Bool := decide (sid < 16384)

/-- Sequence numbers of SKP messages and fragment indexes (Table 3-1). -/
def seqOk (seq : Nat) : Bool := decide (seq < 2 ^ 32)
def fragOk (i : Nat) : Bool := decide (i < 65536)

/-- A key: 1 to 512 bytes in one of 256 key spaces (R136). -/
def keyOk (space : Nat) (key : List Byte) : Bool :=
  decide (space < 256) && decide (1 ≤ key.length ∧ key.length ≤ 512)

/-- A superblock of a swath (Table 8-4). -/
def sbOk (sb : Nat) : Bool := decide (sb < 2048)

/-- A row of blocks an erase may name: a superblock, or while SANITIZE erases one of the 64 rows above (R573). -/
def rowOk (row : Nat) : Bool := decide (row < 2112)

/-- A place in a swath's logical space of 2^35 units of 512 bytes. -/
def allocOk (al : Alloc) : Bool := decide (al.recLoc < 2 ^ 35) && decide (al.extLoc < 2 ^ 35)

/-- A map unit (R284: 30 bits). -/
def unitOk (u : Nat) : Bool := decide (u < 2 ^ 30)

/-- The units a program moves. -/
def moveOk (m : UnitMove) : Bool := unitOk m.unit && decide (m.dst < 2 ^ 30)

/-- A granule of a swath's DRAM (28 bits, Table 10-4). -/
def granuleOk (g : Nat) : Bool := decide (g < 2 ^ 28)

/-- A DRAM position names existing things. -/
def dramOk : DramAt → Bool
  | .buffer u _ => decide (u < 1024)
  | .retention sid seq idx => sidOk sid && seqOk seq && fragOk idx
  | .spare s => dramOk s
  | _ => true

/-- The bits of a beat that have flipped: none, or those of its ten bytes. -/
def errOk (l : List Byte) : Bool := decide (l = [] ∨ l.length = 10)

/-- A read of a granule names existing things. -/
def hitOk (h : DramHit) : Bool := granuleOk h.granule && dramOk h.at_ && errOk h.err

/-- A write of a beat: from one to eight new ones that end within the beat. -/
def beatOk (w : BeatWrite) : Bool :=
  granuleOk w.granule && dramOk w.at_ && errOk w.err &&
    decide (1 ≤ w.new.length ∧ w.first.val + w.new.length ≤ 8)

/-- A frame is at least 64 and at most 16,383 bytes long, its header fields as wide as the wire's. -/
def frameOk (f : Frame) : Bool := decide (f.size ≤ 16383)

/-- A chain frame's HOP is one byte and its payload is at most 1,024 bytes (R532). -/
def chainOk (f : ChainFrame) : Bool := decide (f.hop < 256) && decide (f.payload.length ≤ 1024)

/-- The operands of a command are in range. -/
def Instr.wf : Instr → Bool
  | .frameReceive _ f => frameOk f
  | .reorderTimeout sid seq | .reassemblyTimeout sid seq | .partAckTimer sid seq => sidOk sid && seqOk seq
  | .ackDelayTimer sid | .ack sid | .idleTimeout sid | .sessionOpenPhase1 sid _ | .sessionOpenPhase3 sid _
  | .sessionOpenTimeout sid | .lingerTimeout sid | .streamTimeout sid _ => sidOk sid
  | .rtoTimer sid seq f | .underrunResend sid seq f => sidOk sid && seqOk seq && fragOk f.idx
  | .put _ _ al | .putStream _ _ al | .casPut _ _ al | .delete _ _ al | .discardSecure _ _ al | .hold _ _ al
  | .writeRange _ _ al _ | .append _ _ al _ | .rangePieceSwitch _ _ al _
  | .pairOneCopySwitch _ _ al => allocOk al
  | .writeComplete _ _ al part => allocOk al && part.all beatOk
  | .pairCatchup _ space key al | .extentJoin _ space key al _ => keyOk space key && allocOk al
  | .slotCutover al => al.all allocOk
  | .bufferUnitTake _ _ u => decide (u < 1024)
  | .overflowRefill _ g => decide (g < 2 ^ 21)
  | .codewordRead _ u _ _ _ _ => unitOk u
  | .programComplete _ _ sb _ ms => sbOk sb && ms.all moveOk
  | .programFail _ _ sb _ _ dest ms => sbOk sb && sbOk dest && ms.all moveOk
  | .eraseComplete _ sb _ | .eraseFail _ sb _ _ => rowOk sb
  | .packPageClose _ page => decide (page < 32768)
  | .pageRetire _ page => decide (page < 2 ^ 23)
  | .patrolTick _ g _ p err _ => granuleOk g && dramOk p && errOk err
  | .dmaUeHalt _ _ g _ p => granuleOk g && dramOk p
  | .chainEligible _ _ r => r.reads.all fun e => hitOk e.2
  | .coreTrap (.fetch _ h) | .coreTrap (.load _ h) => hitOk h
  | .sramUe (.rxHeld sid seq _) => sidOk sid && seqOk seq
  | .irqSourceAssert _ s | .notifyTimeout s => decide (s < 0x140)
  | .inventoryStale pos => decide (pos < 64)
  | .adminJobEnd job target => decide (1 ≤ job ∧ job ≤ 5) && decide (target < 256)
  | .imgHdr f _ | .imgData f _ | .imgEnd f | .refuse f | .resend f | .activate f | .inventory f _ => chainOk f
  | .regWritePlain _ a _ _ | .loLatchRead _ a | .rcClearRead _ a | .windowSelectWrite _ a _ => a.toNat % 4 == 0
  | .droopTrip _ | .droopRecover _ | .thermalWarning _ _ | .thermalLimit _ _ => true
  | .pauseRepeatTimer _ | .pauseWatchdogFire _ _ _ | .pauseHoldoffEnd _ | .ownPauseWatchdog _ _
  | .frameTransmit _ _ | .gateHeldDrop _ _ | .txUnderrun _ _ | .ctLevelDecay _ _ | .gclSwapReq _ | .gclSwap _
  | .gclEntryExpire _ _ | .gclDataAccess _ _ _ | .rateStepDown _ _ | .rateStepUp _ _ | .linkChange _ _ _ _
  | .eeeLpiEnter _ | .portEnableWrite _ _ | .loopSet _ _ | .loopTimeout _ | .lbtGo _ _ _ | .fcFill | .fcFlush
  | .fragmentCommit _ | .sessionClose _ | .rekey _ | .rekeyAnswer _ | .queueReset _ | .abortMarkerArrive _ _
  | .queueResetAnswer _ | .get _ | .getRange _ | .head _ | .secureDiscardOverwrite _ _ | .secureDiscardComplete _
  | .list _ | .notifyDone _ | .regRead _ | .regWrite _ | .status _ | .recordRead _ | .timeSet _
  | .functionReset _ | .swathTest _ | .evacuate _ | .sanitize _ _ | .format _ _ | .progress _
  | .settingsWrite _ _ | .imageBegin _ _ _ | .imageData _ _ | .imageStoreComplete _ | .imageTransferTimeout
  | .imageActivate _ | .attest _ _ | .takeOwnership _ _ | .dispatchAdmit | .waitResTimeout _ | .patternLaneStart
  | .patternResult _ | .hazardArrive _ | .qprioAge _ _ | .pairReadyReport _ _
  | .defClearDelivered | .powerFail _ | .flushComplete _ | .swathReady _ | .tcInvalidate _ | .tcWrite _
  | .tcValidate _ | .tcShiftUp _ _ | .tcShiftDown _ _ | .tcShiftMove | .tcCmdInvalid _ _ _ | .tcDataAccess _ _
  | .paDataAccess _ _ | .paSwapRequest | .paSwapTakeEffect | .paTestGo | .paTestDone | .paTkeyWrite _
  | .paTestLenWrite _ | .holdInputChange _ _ | .slotCopyPass | .evacuationEnd | .ckptPassStart _ | .ckptForce _
  | .ckptPassEnd _ | .rebuildEnd _ | .vcFlush _ | .opResume _ _ | .drainStart _ | .tedTrigger _ _
  | .sheafOpen _ _ _ | .katGo _ _ | .unmarkWrite _ | .clClear _ | .coreTrap _ | .dmaRestart _ _ | .sramUe _
  | .tcamSweep _ _ | .startGapMove _ _ | .windowViolation _ _ _ _ | .freezeAutoReset _ | .irqClaim _ _ _
  | .irqDone _ _ _ | .ntfSwSet _ _ | .ntfSwClr _ _ | .notifyClaim | .functionResetComplete _ _ _
  | .mailboxTimeout _ | .powerGoodStart _ | .liveMoveMeadow | .lldpSendTimer | .lldpAllocation _ | .lldpEcho
  | .powerLoopTick _ | .droopMsReport | .thermalLevelTick _ | .thermalRestart _ _ | .bankCharged | .bankTest _
  | .v12Overvoltage | .rstInActivate | .rstInRelease _ | .inputStuck _ _ | .inputSuspendEnd _
  | .chainLockChange _ _ | .chainPresenceChange _ _ | .ledActTimer | .calJournalSave | .cellLowDetect _
  | .trustUncertExceeded | .ptpAnnounce _ _ | .ptpSync _ _ | .slewEnd | .ptpSyncLoss | .announceTimeout
  | .leapSecond | .eventIntake | .measureSample _ _ _ _ | .intervalClose | .closeNow | .shutdown
  | .shutdownComplete | .confirm | .trialConfirmTimer | .trialWatchdog _ | .settingsGuardTimeout
  | .migrationComplete | .activationWhen | .inventoryBeaconTimer | .swathTestEnd _ _ _ _ _
  | .pauseQuantaExpire _ _ | .ownPauseHoldoffEnd _ | .thermalBelowLimit _ | .cellReserveRecover _
  | .holdApplyComplete _ => true

end Sys2Proof
end

