-- ==== Sys2Proof/Tests/Slice0.lean ====
section
/-!
SUPPORT. Tests: ill-formed commands are refused by the well-formedness check; each statement's
hypotheses are met by a small state; single steps give what the manual's tables give.
-/
open Sys2Proof Sys2Proof.Machine
namespace Sys2Proof.Tests

-- one test after another: each waits for the checks of what stands before it
set_option Elab.async false

/-! ### Small states -/

/-- A drive that runs, changed by f. -/
def run (f : Dev → Dev) : State :=
  { pending := [], dev := f { Dev.reset with boot := { Boot.reset with running := true } } }

def via0 : Via := { cls := 0, tagged := false, pcp := 0, dst := .v4, dscp := 0, ecn := 0, peer := 0 }

def keys00 : KeySet := { kH2d := [], ivH2d := [], kD2h := [], ivD2h := [] }

def ctx0 : Ctx where
  st := .opened; port := .a; ip := 0; udp := 0; v6 := false; via := via0; isSealed := false
  admin := true; profile := 0; credit := 16; nonce := []; phase1 := []; phase2 := []; eph := []
  open3 := none; p2 := []; p4 := []; secret := []; keys := keys00; openNo := 0; rxNext := 1; rxAck := 0; rxDone := []; txNext := 1; txAcked := 0; txSent := 0
  ackTx := 1; ackRx := 0; epoch := 0; prev := none; rekeyDue := false; rekeying := false
  closeSeen := false; msgs := []; out := []; streams := []; overRun := 0; frozenAt := none
  paused := false; ackDue := false; acks := []; high0 := 0; highDone := 0; resetBy := none

def cmd0 (op : Nat) (payload : List Byte) : Cmd where
  sid := 5; seq := 1; tag := 0; op := op; space := 0; payload := payload; gotAll := true
  msgLen := payload.length; credit := false; port := .a; via := via0; oneFrame := true; keyNo := none; key := []
  hash := 0; rule := none; st := .inSession; owners := []; arrived := []
  eligible := []; passed := []; ready := []; ordered := false; oneCopy := false; hasTag := false
  slotsOn := []; ver := 1; chargeL := 0; chargeP := 0; keyHeld := []; chargedOn := []; invNo := 0
  held := []; units := []; snap := none; opened := 0; pieces := []
  base := []; taken := []; flows := []; result := []; respSeqs := []; started := false; answered := false
  abort := false; t0 := 0; admStamp := 0; admClock := 0; seals := []; age := 0; markers := []
  aborted := 0; failed := false; highDone := 0; target := 5; resume := 0; regAt := 0; regVals := []

/-- Session 5 stands, with command 7 in it; the drive is changed by f. -/
def ask (q : Cmd) (f : Dev → Dev) : State :=
  run fun d => f { d with
    ses := { d.ses with ctx := [(5, ctx0)] }
    disp := { d.disp with cmds := [(7, q)] } }

/-- A field of a register set. -/
def at_ (b : Nat) (f : Fld) (v : Nat) (d : Dev) : Dev := d.setFld b f v

/-- Port A carries frames. -/
def linked (f : Dev → Dev) : State :=
  run fun d => f (at_ (Base.prt .a) F.PRT_STATUS_LINK 1 (at_ (Base.prt .a) F.PRT_CTRL_ENABLE 1
    (at_ (Base.prt .a) F.PRT_IPV4_ADDR_ADDR 0x0A000001 d)))

def ip0 : IpHdr where
  v6 := false; version := 4; ihl := 5; lenFits := true; mf := false; fragOff := 0; csumOk := true
  nextHdr := 17; dst := 0xFFFF0A000001; src := 0; dscp := 0; ecn := 0

/-- An SKP header of session 5. -/
def hdr0 (op : BitVec 8) : SkpHdr where
  version := 1; flags := 0; session := 5; seq := 1; ack := 0; tag := 0; opcode := op; status := 0
  keySpace := 0; fragIndex := 0; fragCount := 1; fragLen := 0; msgLen := 0; fragOffset := 0

def skp0 (h : SkpHdr) (payload : List Byte) : SkpFrame where
  hdr := { h with fragLen := BitVec.ofNat 16 payload.length, msgLen := BitVec.ofNat 32 payload.length }
  udpLen := udpLenOf payload.length false; payload := payload; tagOk := true; oldKey := false

def frame0 (dst : DstMac) (b : FrameBody) : Frame where
  size := 100; symbolErr := false; fecFixed := 0; fecBad := 0; fcsOk := true; dst := dst; tags := []; srcMac := 0; body := b

def udp0 (f : SkpFrame) : FrameBody := .udp ip0 5000 20820 .good f

def rx0 (f : SkpFrame) : RxEnt where
  skp := f; srcIp := 0; srcUdp := 0; v6 := false; cells := 1; cells7 := 0; via := via0; act := 0; keyNo := none

def frag0 : OutFrag where
  seq := 1; idx := 0; count := 1; msgLen := 0; off := 0; payload := []; tag := 0; op := Op.get
  status := 0; space := 0; more := false; deferred := false; epoch := 0; via := via0; reqSeq := none
  cid := none; last := true; need := 0; swath := none; about := none; sent := 0; good := false
  cut := false; dataAt := none; ackAt := 0; rekeyAt := none; tries := 0; wire := []; cred := false

/-- A request message of session 5 with number 1. -/
def msg0 (cid : Option Nat) : InMsg where
  seq := 1; hdr := hdr0 0; frags := []; frag0 := true; done := false; oneFrame := true; t0 := 0
  cid := cid; held := []; via := via0; credit := false; flaw := 0; keyNo := none

/-- The drive with session 5 in this context. -/
def sess (c : Ctx) (f : Dev → Dev) : State :=
  run fun d => f { d with ses := { d.ses with ctx := [(5, c)] } }

def tx0 (i : TxItem) : TxEnt := { via := via0, size := 64, item := i }

/-! ### Each statement's hypotheses are met -/

/-- A request block, key and data of a read or a change (Table 4-8). -/
def blk (opflags len version offset aux : Nat) (key data : List Byte) : List Byte :=
  be 2 key.length ++ be 2 opflags ++ be 4 len ++ be 8 version ++ zeros 8 ++ be 4 offset ++ be 4 aux ++ key ++ data

/-- A command on the key "k" of key space 0, held by swath 0. -/
def kcmd (op : Nat) (payload : List Byte) : Cmd :=
  { cmd0 op payload with key := [0x6B], st := .running, owners := [0], arrived := [0], eligible := [0] }

def fc0 : FcEnt where
  space := 0; hash := 0; key := [0x6B]; version := 1; value := [1]; kflags := 0; written := 0; retain := 0
  used := false

/-- A stream on the key "k" of which nothing has come. -/
def stream0 : Stream where
  space := 0; key := [0x6B]; sent := 0; whole := 2; stamp := 0; seq := 1; data := []
  ver := 1; owners := [0]; chargeL := 0; chargeP := 0; keyHeld := []; flows := []; parts := []; seals := []

def open0 (ph : Nat) (payload : List Byte) : OpenMsg where
  port := .a; ip := 0; udp := 5000; v6 := false; sid := 5; payload := be 1 ph ++ payload; act := 0; via := via0
  tag := 0; space := 0; bad := false

def snap0 : Snap where
  version := 1; length := 1; value := [9]; held := false; paired := false; oneCopy := false; written := 0
  retain := 0; swath := 0; lost := []; recLoc := 0; extents := []; found := true; ahead := false; recBad := false; pins := []
  tried := none; recHit := false

/-- A read that has passed its order point at swath 0 with this snapshot. -/
def read0 (op : Nat) (b : List Byte) (sn : Snap) : Cmd :=
  { kcmd op b with passed := [0], snap := some sn }

def rule0 : KeyRule where
  retainS := 0; prio := 0; mirror := false; holdSel := 0; holdMin := 0; rule := 0x3FF

/-- One sheaf at 128, sealed under count 1. -/
def ext0 : Extent where
  loc := 128; skip := 0; first := 0; sheaves := 1; sealBy := 0; cnt := 1; sealVer := 1
  made := { key := 0, by_ := 0, cnt := 1, hash := 0, ver := 1, endAt := 1 }

/-- The key "k" of key space 0 with a value of one byte. -/
def key0 : KeyEnt where
  space := 0; key := [0x6B]; hash := 0; version := 1; value := [9]; written := 0; retain := 0
  held := false; paired := false; ahead := false; packed := false; loc := 0
  extents := [ext0]; recSeal := 1; recKey := 0; rseq := 1; rule := 0x3FF; alt := false; ovf := none; ent := 0
  recBad := false; drained := false; joinBad := false; badSheaves := []; gone := []; sid := 5; tag := 0; seq := 1; parts := 1

/-- Swath 0 holds these keys. -/
def keys0 (l : List KeyEnt) (d : Dev) : Dev := d.updSw 0 fun x => { x with keys := l, ready := true }

/-- A write of the key "k" whose data swath 0 has buffered. -/
def write0 (op : Nat) (b : List Byte) : Cmd :=
  { kcmd op b with slotsOn := [0], taken := [(0, 17)], keyHeld := [0], ver := 3 }

def pairSpace (d : Dev) : Dev :=
  { d with boot := { d.boot with set_ := { d.boot.set_ with spaces := [(0, ⟨1, none, 0, 0, 0, false⟩)] } } }

def tc0 (valid : Bool) : TcEnt := { value := 0, mask := 0, prio := 0, valid := valid, action := 0, hits := 0 }

def polOf (f : Pol → Pol) : State := run fun d => { d with pol := f d.pol }

/-- A pattern bank of one set of one state, with one rule: set 0 takes every key of key space 0 to its
state 0, whose accept list names rule 1. -/
def bank0 (accepts : Nat) : Tbl Word :=
  [(0x200000, BitVec.ofNat 32 (accepts * 2 ^ 14)), (0x220000, 1#32), (0x224803, 0x80000000#32), (0x225402, 1#32),
    (0x225403, 3#32), (0x225406, 1#32), (0x225440, 8#32)]

/-- Swath 15 changed. -/
def sw15 (f : Swath → Swath) : State := run fun d => d.updSw 15 f

def sb0 (st : SbSt) : Sb := { Sb.blank with st := st }

/-- Swath 0 owns no slot: swath 1 fosters what was its own. -/
def evac0 : Tbl Slot := (List.range 16).map fun i => (16 * i, { Slot.home0 (16 * i) with owner := 1, st := 3 })

/-- An evacuation of swath 0 to swath 1 moves slot 0, which stands in this state. -/
def evac (st : Nat) : State :=
  run fun d => { (d.updSw 0 fun x => { x with ready := true }).updSw 1 fun x => { x with ready := true } with
    disp := { d.disp with plc := [(0, { Slot.home0 0 with st := st })] }
    adm := { d.adm with jobs := [(768, ⟨1, 0, 0, 0, 0, 1⟩)], slot := some 0, foster := some 1 } }

def irqSrc (f : IrqSrc → IrqSrc) (k : Nat) (d : Dev) : Dev := d.setSrc k (f IrqSrc.idle)

/-- Private source 63 of a target holds PRIO 15 and an event. -/
def privPending (t : Nat) (claims : Nat) (d : Dev) : Dev :=
  at_ (srcReg (priv t 63)) ⟨0, 0, 4⟩ 15 (irqSrc (fun x => { x with event := true, claims := claims }) (priv t 63) d)

/-- A profile with every permission in every key space. -/
def allPerms (d : Dev) : Dev :=
  { d with boot := { d.boot with set_ := { d.boot.set_ with profiles := [(0, ⟨2 ^ 16 - 1, 0#256 - 1⟩)] } } }

def inp0 (active stuck susp : Bool) : InputSt :=
  { active := active, stuck := stuck, susp := susp, suspS := 0, recent := [], since := 0 }

def pwOf (f : Power → Power) (g : Dev → Dev) : State := run fun d => g { d with pw := f d.pw }
def ioOf (f : Io → Io) (g : Dev → Dev) : State := run fun d => g { d with io := f d.io }

def calOf (f : Cal → Cal) (g : Dev → Dev) : State := run fun d => g { d with cal := f d.cal }
def evrOf (f : Recorder → Recorder) : State := run fun d => { d with evr := f d.evr }

def event0 (code sev : Nat) : Event where
  code := code; unit := 0; sev := sev; value := 1; detail := 0; stamp := 0; untr := false

def announce0 : Announce where
  domain := 0; utcValid := true; timeTrace := true; gm := 1; utcOffset := 37; better := true
  leap61 := false; leap59 := false

/-- A start from V12_IN with everything good. -/
def start0 : StartIn where
  v12Good := true; pdContract := false; pdClass := 0; offSeconds := 0; calKept := false; bist := []
  flushBad := []; flushLines := []; unwrapBad := []; badSegs := []
  fwCheckA := true; fwCheckB := true; setSigA := true; setSigB := true; markBad := []; cut := []; badRecs := []; badShipped := []
  packLines := []; newKeys := []; newSecret := 1

def bootOf (f : Boot → Boot) (g : Dev → Dev) : State := run fun d => g { d with boot := f d.boot }

/-- A drive that does not run. -/
def stopped0 (f : Power → Power) : State := { pending := [], dev := { Dev.reset with pw := f Dev.reset.pw } }

/-- A settings image without sections (Table 15-7), and a firmware header for a payload of 100 bytes
(Table 15-4). -/
def settings0 (series : Nat) : List Byte :=
  be 4 0x53484753 ++ be 2 0 ++ be 2 1 ++ be 8 series ++ be 4 160 ++ be 2 0 ++ be 2 0 ++ zeros 136

def header0 : List Byte :=
  be 4 0x53484749 ++ be 2 1 ++ be 2 1 ++ partName ++ be 1 0 ++ be 1 255 ++ be 1 0 ++ be 1 0 ++ be 4 1 ++
    be 4 100 ++ zeros 484

def xfer0 (chain storing : Bool) : Transfer where
  hdr := fwHdrOf header0; id := 9; got := 99; data := []; chain := chain; storing := storing; xfer := 3
  hop := 1; gap := false

def chain0 (hop offset : Nat) (xfer : Word) (payload : List Byte) : ChainFrame :=
  { hop := hop, offset := offset, xfer := xfer, payload := payload, crcOk := true }

/-- A masked write that an address takes. -/
theorem takes_intro {d : Dev} {path : ReqPath} {a : Nat} {mask value : Word}
    (h : (regDesc a).map (fun r => r.fields.any fun f => f.outside (d.readWord path a) mask value) = some false)
    (hw : d.regWaits a = false) (hf : d.regFrozen a = false) : ∃ r, d.TakesWrite path a mask value r := by
  cases hr : regDesc a with
  | none => simp [hr] at h
  | some r => exact ⟨r, hr, hw, hf, by simpa [hr] using h⟩

/-- A job of a kind and target that runs. -/
def jobOf (job target act : Nat) (d : Dev) : Dev :=
  { d with adm := { d.adm with jobs := [(job * 256 + target, ⟨1, 0, 0, 0, 1, act⟩)] } }

/-- A die operation that runs. -/
def op0 (op : NandOp) : DieOp :=
  { op := op, by_ := .host, old := false, direct := false, susp := 0, held := false, reads := 0 }
/-- The witness of FramesAreCheckedAndWaitToCommit: a short frame; a good one, with and without room. -/
theorem test_w_frames :
    let s := linked (at_ Base.pol F.POL_CTRL_TC_EN 0)
    let f : Frame := { frame0 .own .other with size := 63 }
    let g := frame0 .own (udp0 (skp0 (hdr0 1) []))
    let full := linked fun d => { at_ Base.pol F.POL_CTRL_TC_EN 0 d with pool := 32256 }
    (s.dev.alive = true ∧ s.dev.portCarries .a = true ∧ s.dev.firstFailure .a f = some Cnt.runt) ∧
    (s.dev.firstFailure .a g = none ∧ s.dev.resetting .policyMatcher = false ∧
      s.dev.flag Base.pol F.POL_CTRL_TC_EN = false ∧
      s.dev.roomFor (s.dev.initialClass .a g) (cellsOf g.size) = true) ∧
    (full.dev.alive = true ∧ full.dev.portCarries .a = true ∧ full.dev.firstFailure .a g = none ∧
      full.dev.resetting .policyMatcher = false ∧ full.dev.flag Base.pol F.POL_CTRL_TC_EN = false ∧
      full.dev.roomFor (full.dev.initialClass .a g) (cellsOf g.size) = false) := by decide +kernel

/-- Check 1 at its edge: 64 bytes pass, 63 do not; check 2: 9,216 pass and 9,217 do not (R24). -/
theorem test_frame_sizes :
    let d := (linked id).dev
    let f := frame0 .own (udp0 (skp0 (hdr0 1) []))
    d.firstFailure .a { f with size := 64 } = none ∧ d.firstFailure .a { f with size := 63 } = some 14 ∧
      d.firstFailure .a { f with size := 9216 } = none ∧
      d.firstFailure .a { f with size := 9217 } = some 15 := by decide +kernel

/-- The witness of PauseTimersDoWhatTheirRulesSay: a paused port, a paused class, a pausing drive. -/
theorem test_w_pause_timers :
    let s := run (at_ (Base.prt .a) F.PRT_STATUS_PAUSED 1 ∘ at_ (Base.prt .a) F.PRT_PWD_TIME 100)
    let c := run (at_ (Base.prt .a) F.PRT_STATUS_PFC_PAUSED 128 ∘ at_ (Base.prt .a) F.PRT_PWD_TIME 100)
    let o := run fun d => (at_ (Base.prt .a) F.PRT_PWD_TIME 100 d).updPort .a fun x => { x with ownPause := true }
    (s.dev.alive = true ∧ s.dev.fld (Base.prt .a) F.PRT_PWD_TIME ≠ 0 ∧
      s.dev.fld (Base.prt .a) F.PRT_PWD_TIME < 101 ∧ s.dev.heldPaused .a none = true) ∧
    (c.dev.alive = true ∧ c.dev.fld (Base.prt .a) F.PRT_PWD_TIME < 101 ∧
      c.dev.heldPaused .a (some 7) = true) ∧
    (o.dev.alive = true ∧ o.dev.fld (Base.prt .a) F.PRT_PWD_TIME ≠ 0 ∧
      o.dev.fld (Base.prt .a) F.PRT_PWD_TIME < 101 ∧ (o.dev.port .a).ownPause = true) := by decide +kernel

/-- The witness of GateListsSwapStepAndAreAccessed. -/
theorem test_w_gates :
    let legal := run fun d => (at_ (Base.prt .a) F.PRT_GCL_CTRL_ADMIN_LEN 1
      (at_ (Base.prt .a) F.PRT_GCL_CYCLE_NS 1000 d)).updPort .a fun x => { x with gclAdmin := [(1, 1#32)] }
    let bad := run (at_ (Base.prt .a) F.PRT_GCL_CYCLE_NS 999)
    let swap := run (at_ (Base.prt .a) F.PRT_GCL_CTRL_PENDING 1)
    (legal.dev.alive = true ∧ legal.dev.gclLegal .a = true) ∧
    (bad.dev.alive = true ∧ bad.dev.gclLegal .a = false) ∧
    (swap.dev.alive = true ∧ swap.dev.flag (Base.prt .a) F.PRT_GCL_CTRL_PENDING = true ∧
      swap.dev.fld (Base.prt .a) F.PRT_GCL_BASE_SEC_SEC * 1000000000 +
        swap.dev.fld (Base.prt .a) F.PRT_GCL_BASE_NS_NS ≤ swap.dev.ptpNow) ∧
    (legal.dev.flag (Base.prt .a) F.PRT_GCL_CTRL_PENDING = false) := by decide +kernel

/-- The witness of LinksStepChangeAndLoopBack: both steps, two ports that meet the condition, a link in mode 4, idle
and loopback. -/
theorem test_w_links :
    let dn := run fun d => (at_ (Base.prt .a) F.PRT_CTRL_STEP_EN 1 (at_ (Base.prt .a) F.PRT_STATUS_LINK 1
      (at_ (Base.prt .a) F.PRT_STATUS_RATE 1 (at_ (Base.prt .a) F.PRT_STEP_DOWN_PCT 20 d)))).updPort .a
        fun x => { x with lowAdv := true }
    let up := run fun d => (at_ (Base.prt .a) F.PRT_CTRL_STEP_EN 1 (at_ (Base.prt .a) F.PRT_STATUS_LINK 1
      (at_ (Base.prt .a) F.PRT_STATUS_RATE 2 (at_ (Base.prt .a) F.PRT_STEP_UP_PCT 50 d)))).updPort .a
        fun x => { x with stepped := true }
    let can (p : PortId) (d : Dev) : Dev := (at_ (Base.prt p) F.PRT_CTRL_STEP_EN 1 (at_ (Base.prt p) F.PRT_STATUS_LINK 1
      (at_ (Base.prt p) F.PRT_STATUS_RATE 1 (at_ (Base.prt p) F.PRT_STEP_DOWN_PCT 20 d)))).updPort p
        fun x => { x with lowAdv := true }
    let both := run fun d => can .a (can .b d)
    let w := run fun d => (at_ (Base.prt .a) F.PRT_CTRL_ENABLE 1 (at_ (Base.prt .a) F.PRT_CTRL_SPEED 0 (can .b d))).updPort
      .b fun x => { x with stepWait := some true }
    let l := run (at_ (Base.prt .a) F.PRT_CTRL_ENABLE 1 ∘ at_ (Base.prt .a) F.PRT_CTRL_SPEED 0)
    let e := run fun d => (at_ (Base.prt .c) F.PRT_CTRL_EEE_EN 1 (at_ (Base.prt .c) F.PRT_STATUS_LINK 1 d)).updPort
      .c fun x => { x with eeeAdv := true }
    let t := run (at_ (Base.prt .a) F.PRT_CTRL_LOOP 1 ∘ at_ (Base.prt .a) F.PRT_LBT_CTRL_FRAMES 10)
    (dn.dev.alive = true ∧ dn.dev.flag (Base.prt .a) F.PRT_CTRL_STEP_EN = true ∧
      dn.dev.flag (Base.prt .a) F.PRT_STATUS_LINK = true ∧
      dn.dev.flag (Base.prt .a) F.PRT_STATUS_STEPPING = false ∧ dn.dev.otherStepping .a = false ∧
      (∀ q ∈ [PortId.a, .b, .c], (dn.dev.port q).stepWait = none) ∧
      dn.dev.fld (Base.prt .a) F.PRT_STATUS_RATE = 1 ∧ (dn.dev.port .a).lowAdv = true ∧
      19 < dn.dev.fld (Base.prt .a) F.PRT_STEP_DOWN_PCT) ∧
    (up.dev.alive = true ∧ up.dev.flag (Base.prt .a) F.PRT_CTRL_STEP_EN = true ∧
      up.dev.flag (Base.prt .a) F.PRT_STATUS_LINK = true ∧
      up.dev.flag (Base.prt .a) F.PRT_STATUS_STEPPING = false ∧ up.dev.otherStepping .a = false ∧
      (up.dev.port .a).stepped = true ∧ up.dev.fld (Base.prt .a) F.PRT_STATUS_RATE = lowMode .a ∧ up.dev.fld (Base.prt .a) F.PRT_STEP_UP_PCT < 51) ∧
    (both.dev.alive = true ∧ (both.dev.port .a).stepWait = none ∧ both.dev.wantsStep .a true 19 = true ∧
      both.dev.wantsStep .b true 19 = true) ∧
    (w.dev.alive = true ∧ w.dev.mayLink .a = true ∧ w.dev.modeOk .a 2 = true ∧ (w.dev.port .a).stepWait = none ∧
      (w.dev.port .b).stepWait = some true ∧ w.dev.mayStep .b true = true) ∧
    (l.dev.alive = true ∧ l.dev.mayLink .a = true ∧ l.dev.modeOk .a 4 = true ∧
      l.dev.portPowered .a = true) ∧
    (e.dev.alive = true ∧ e.dev.flag (Base.prt .c) F.PRT_CTRL_EEE_EN = true ∧ (e.dev.port .c).eeeAdv = true ∧
      (e.dev.port .c).txq = [] ∧ e.dev.flag (Base.prt .c) F.PRT_STATUS_LINK = true) ∧
    (t.dev.alive = true ∧ t.dev.fld (Base.prt .a) F.PRT_CTRL_LOOP = 1 ∧ t.dev.portPowered .a = true ∧
      10 ≤ t.dev.fld (Base.prt .a) F.PRT_LBT_CTRL_FRAMES) := by decide +kernel

/-- The witness of TransmissionUnderrunsAndGates: an ARP reply, a fragment and an ACK message waiting on port A, a level
above CT_BASE, a frame behind a gate. -/
theorem test_w_transmit :
    let s := linked fun d => d.enqueue .a (tx0 .arpReply)
    let t := linked fun d =>
      { d.enqueue .a (tx0 (.skp 5 0 1 0)) with
        ses := { d.ses with ctx := [(5, { ctx0 with out := [frag0] })] } }
    let k := linked fun d =>
      { d.enqueue .a (tx0 (.ackMsg 5 0 1 [])) with ses := { d.ses with ctx := [(5, ctx0)] } }
    let left := List.replicate 9 0
    let l := run fun d => (at_ (Base.prt .a) F.PRT_CT_LEVEL_LEVEL 5 (at_ (Base.prt .a) F.PRT_CT_CT_BASE 0
      (at_ (Base.prt .a) F.PRT_CT_DECAY 10 d))).updPort .a fun x => { x with sentGood := [(0, 10)] }
    let g := run fun d => (at_ (Base.prt .a) F.PRT_GCL_CTRL_GATE_EN 1 d).enqueue .a (tx0 .arpReply)
    (s.dev.alive = true ∧ s.dev.portCarries .a = true ∧
      s.dev.chooseTx .a left = some (tx0 .arpReply, []) ∧ s.dev.irq.due = []) ∧
    (t.dev.alive = true ∧ t.dev.portCarries .a = true ∧
      t.dev.chooseTx .a left = some (tx0 (.skp 5 0 1 0), []) ∧ t.dev.irq.due = [] ∧ (tx0 (.skp 5 0 1 0)).via.cls < 8 ∧
      (t.dev.ctx 5).map (fun c => (c.frag 0 1 0, c.port, (c.stamps 0).isSome)) = some (some frag0, .a, true)) ∧
    (k.dev.alive = true ∧ k.dev.portCarries .a = true ∧
      k.dev.chooseTx .a left = some (tx0 (.ackMsg 5 0 1 []), []) ∧ k.dev.irq.due = [] ∧
      (k.dev.ctx 5).map (fun c => (c.port, (c.stamps 0).isSome)) = some (.a, true)) ∧
    (l.dev.alive = true ∧ l.dev.fld (Base.prt .a) F.PRT_CT_CT_BASE < l.dev.ctLevel .a 0 ∧
      l.dev.fld (Base.prt .a) F.PRT_CT_DECAY ≤ lookD 0 0 (l.dev.port .a).sentGood) ∧
    (g.dev.alive = true ∧ g.dev.flag (Base.prt .a) F.PRT_GCL_CTRL_GATE_EN = true ∧
      g.dev.flag (Base.prt .a) F.PRT_STATUS_STEPPING = false ∧
      g.dev.takeTx .a 0 (List.replicate 9 (10 ^ 12)) (g.dev.toSend .a) = some (tx0 .arpReply, [])) := by decide +kernel

/-- The witness of FrontCacheAndBufferUnits. -/
theorem test_w_front_cache :
    let late := run fun d => { d with disp := { d.disp with fills := [(fc0, 0)], invTab := [(0, 1)] } }
    let good := run fun d => { at_ Base.dsp F.DSP_FC_CTRL_FC_EN 1 d with
      disp := { d.disp with fills := [(fc0, 1)], invTab := [(0, 1)] } }
    let q := kcmd Op.put (blk 0 1 0 0 1 [0x6B] [9])
    let w := ask q fun d => { d.updSw 0 fun x => { x with ready := true } with pw := { d.pw with capUnits := 1024 } }
    (late.dev.alive = true ∧ late.dev.disp.fills = [(fc0, 0)] ∧
      0 < lookD (fc0.hash.toNat % 4096) 0 late.dev.disp.invTab) ∧
    (good.dev.alive = true ∧ good.dev.disp.fills = [(fc0, 1)] ∧
      lookD (fc0.hash.toNat % 4096) 0 good.dev.disp.invTab ≤ 1 ∧ good.dev.disp.fcBlock = false ∧
      good.dev.flag Base.dsp F.DSP_FC_CTRL_FC_EN = true) ∧
    (w.dev.alive = true ∧ w.dev.cmd 7 = some q ∧ isWrite q.op = true ∧ q.op ≠ Op.putStream ∧
      w.dev.swRuns 0 = true ∧ (0 : Fin 16) ∈ q.eligible ∧ (0 : Fin 16) ∉ q.passed ∧
      1023 < w.dev.pw.capUnits ∧ look 1023 (w.dev.sw 0).units = none ∧
      lookD 0 0 q.taken < unitsFor q.len ∧ q.gotAll = true) := by decide +kernel

/-- The witness of CommittedFragmentsGoWhereTheyBelong: a bad version, a stranger, a phase 1 message, one of a message a byte
too long and an ACK message at the front of port A. -/
theorem test_w_commit :
    let bad := rx0 { skp0 (hdr0 1) [] with hdr := { hdr0 1 with version := 2 } }
    let str := rx0 (skp0 (hdr0 1) [])
    let p1 := rx0 (skp0 (hdr0 0x20) (be 1 1 ++ zeros 135))
    let o := skp0 (hdr0 0x20) (be 1 1 ++ zeros 135)
    let p1l := rx0 { o with hdr := { o.hdr with msgLen := 8293 } }
    let ack := rx0 (skp0 (hdr0 0x24) (zeros 8))
    let s (e : RxEnt) := run fun d => d.updPort .a fun x => { x with rxq := [e] }
    let t := sess ctx0 fun d => d.updPort .a fun x => { x with rxq := [ack] }
    ((s bad).dev.alive = true ∧ ((s bad).dev.port .a).rxq = [bad] ∧
      (s bad).dev.resetting .sessionEngine = false ∧ bad.act ≠ 1 ∧
      hdrBad bad.skp ((s bad).dev.ctx (bad.skp.hdr.session.toNat % 16384)) = true) ∧
    (((s str).dev.port .a).rxq = [str] ∧ hdrBad str.skp none = false ∧
      (s str).dev.ctx (str.skp.hdr.session.toNat % 16384) = none ∧
      str.skp.hdr.opcode.toNat ≠ Op.sessionOpen) ∧
    (((s p1).dev.port .a).rxq = [p1] ∧
      hdrBad p1.skp ((s p1).dev.ctx (p1.skp.hdr.session.toNat % 16384)) = false ∧
      openPhase p1.skp = some 1 ∧ p1.skp.hdr.msgLen.toNat ≤ msgLimit Op.sessionOpen) ∧
    (((s p1l).dev.port .a).rxq = [p1l] ∧
      hdrBad p1l.skp ((s p1l).dev.ctx (p1l.skp.hdr.session.toNat % 16384)) = false ∧
      openPhase p1l.skp = some 1 ∧ msgLimit Op.sessionOpen < p1l.skp.hdr.msgLen.toNat) ∧
    (t.dev.alive = true ∧ (t.dev.port .a).rxq = [ack] ∧ t.dev.resetting .sessionEngine = false ∧
      t.dev.ctx (ack.skp.hdr.session.toNat % 16384) = some ctx0 ∧ hdrBad ack.skp (some ctx0) = false ∧
      ack.skp.hdr.opcode.toNat = Op.ack ∧ tupleBad ctx0 .a ack = false ∧
      tagPrevious ctx0 ack.skp = false ∧ tagCurrent ctx0 ack.skp = true ∧
      hdrBreaches ctx0 ack.skp.hdr = 0 ∧ fragFits (InMsg.fresh ack) ack.skp.hdr = true ∧
      ack.skp.hdr.fragCount = 1 ∧ ackShape ack = true ∧ ctx0.st ≠ .closing) := by decide +kernel

/-- The witness of MessagesThatStayIncompleteLeave. -/
theorem test_w_incomplete :
    let c1 := { ctx0 with msgs := [msg0 none] }
    let c2 := { ctx0 with msgs := [msg0 (some 7)] }
    let q := { cmd0 Op.put [] with gotAll := false }
    let st := stream0
    let c3 := { ctx0 with streams := [st] }
    let a := sess c1 id
    let b := sess c2 fun d => { d with disp := { d.disp with cmds := [(7, q)] } }
    let e := sess c3 id
    (a.dev.alive = true ∧ a.dev.ctx 5 = some c1 ∧ c1.msg 1 = some (msg0 none) ∧ (msg0 none).cid = none) ∧
    (b.dev.alive = true ∧ b.dev.ctx 5 = some c2 ∧ c2.msg 1 = some (msg0 (some 7)) ∧
      b.dev.cmd 7 = some q ∧ q.gotAll = false ∧ q.answered = false ∧ q.op ≠ Op.putStream ∧ q.sid = 5) ∧
    (e.dev.alive = true ∧ e.dev.ctx 5 = some c3 ∧ c3.streams[0]? = some st ∧ st.sent < st.whole) := by
  decide +kernel

/-- The witness of AcknowledgementAndResending, the resend limit among its edges. -/
theorem test_w_acks :
    let c1 := { ctx0 with ackDue := true }
    let m := { msg0 none with frags := [(1, 0, [])] }
    let c2 := { ctx0 with msgs := [m] }
    let a := be 4 1 ++ be 2 1 ++ zeros 2
    let c3 := { ctx0 with acks := [(0, a)] }
    let f := { frag0 with sent := 1 }
    let g := { frag0 with sent := 1, tries := 255 }
    let c4 := { ctx0 with out := [g] }
    let c5 := { ctx0 with out := [f] }
    let h := { frag0 with cut := true }
    let c6 := { ctx0 with out := [h] }
    let s (c : Ctx) := sess c id
    ((s c1).dev.alive = true ∧ (s c1).dev.ctx 5 = some c1 ∧ c1.ackDue = true ∧ c1.st ≠ .opening ∧
      (s c1).dev.ackQueued 5 c1.port = false ∧ c1.ackTx ≠ 0xFFFFFFFF) ∧
    ((s c2).dev.ctx 5 = some c2 ∧ c2.msg 1 = some m ∧
      m.firstMissing < (m.frags.map (·.1)).foldl max 0 ∧ c2.ackTx ≠ 0xFFFFFFFF) ∧
    ((s c3).dev.ctx 5 = some c3 ∧ c3.st ≠ .closing ∧ c3.acks = [(0, a)] ∧ fieldBe a 0 4 ≠ 0 ∧ 8 ≤ a.length) ∧
    ((s c4).dev.ctx 5 = some c4 ∧ c4.frag (c4.timerEpoch false) 1 0 = some g ∧ g.sent ≠ 0 ∧ c4.paused = false ∧
      (s c4).dev.fld Base.ses F.SES_TIMER_RTO_RETRY_MAX ≤ g.tries) ∧
    ((s c5).dev.ctx 5 = some c5 ∧ c5.frag (c5.timerEpoch false) 1 0 = some f ∧ f.sent ≠ 0 ∧ c5.paused = false ∧
      f.tries < (s c5).dev.fld Base.ses F.SES_TIMER_RTO_RETRY_MAX) ∧
    ((s c6).dev.ctx 5 = some c6 ∧ c6.frag (c6.timerEpoch false) 1 0 = some h ∧ h.cut = true) := by decide +kernel

/-- The witness of SessionsCloseAndRekey, the last epoch but one among its edges. -/
theorem test_w_sessions :
    let o := { ctx0 with st := .opening }
    let l := { ctx0 with st := .closing }
    let k := { ctx0 with isSealed := true, epoch := 65534 }
    let q1 := cmd0 Op.sessionClose []
    let q2 := cmd0 Op.rekey (be 2 65535 ++ zeros 2)
    let q3 := { cmd0 Op.rekey (be 2 1 ++ zeros 2) with st := .running }
    let s (c : Ctx) := sess c id
    let t (c : Ctx) (q : Cmd) := sess c fun d => { d with disp := { d.disp with cmds := [(7, q)] } }
    ((s ctx0).dev.alive = true ∧ (s ctx0).dev.ctx 5 = some ctx0 ∧ ctx0.st ≠ .opening ∧ (s ctx0).dev.irq.due = []) ∧
    ((s o).dev.ctx 5 = some o ∧ o.st = .opening) ∧ ((s l).dev.ctx 5 = some l ∧ l.st = .closing) ∧
    ((t ctx0 q1).dev.alive = true ∧ (t ctx0 q1).dev.cmd 7 = some q1 ∧ (t ctx0 q1).dev.ctx q1.sid = some ctx0 ∧
      q1.op = Op.sessionClose ∧ q1.st = .inSession ∧ (t ctx0 q1).dev.othersOf q1.sid 7 = []) ∧
    ((t k q2).dev.cmd 7 = some q2 ∧ (t k q2).dev.ctx q2.sid = some k ∧ q2.op = Op.rekey ∧
      q2.st = .inSession ∧ q2.gotAll = true ∧ k.isSealed = true ∧ k.epoch ≠ 65535 ∧
      fieldBe q2.payload 0 2 = k.epoch + 1) ∧
    ((t ctx0 q3).dev.cmd 7 = some q3 ∧ q3.op = Op.rekey ∧ q3.st = .running ∧
      (t ctx0 q3).dev.othersOf q3.sid 7 = [] ∧ ∀ f ∈ ctx0.out, f.epoch = ctx0.epoch → f.seq = 0) := by
  decide +kernel

/-- The witness of OpeningTakesAContextOrRefuses: a sealed opening, one of a reserved mode, a good chain
and a bad one. -/
theorem test_w_opening :
    let o := open0 1 (be 1 1 ++ zeros 134)
    let b := open0 1 (be 1 4 ++ zeros 134)
    let p := open0 3 (zeros 99)
    let c := { ctx0 with st := .opening, admin := false }
    let v : ChainVerdict := ⟨true, true, some 0, 0, 0⟩
    let s (m : OpenMsg) := run fun d => { d with ses := { d.ses with opens := [m] } }
    let t := sess c fun d => { d with
      ses := { d.ses with opens := [p] }
      boot := { d.boot with set_ := { d.boot.set_ with anchors := [3] } } }
    ((s o).dev.alive = true ∧ takeOpen 1 (s o).dev.ses.opens = some (o, []) ∧
      (s o).dev.openCtxOf o = none ∧ ((s o).dev.countOpen []).openRefusal o = none ∧
      (s o).dev.ctx 16383 = none) ∧
    (takeOpen 1 (s b).dev.ses.opens = some (b, []) ∧ (s b).dev.openCtxOf b = none ∧
      ((s b).dev.countOpen []).openRefusal b = some St.malformed ∧ b.act = 0) ∧
    (t.dev.alive = true ∧ takeOpen 3 (t.dev.ses.opens.filter fun x => x.sid == 5) = some (p, []) ∧
      t.dev.ctx 5 = some c ∧ c.st = .opening ∧ c.p4 = [] ∧ phase3Ok p = true ∧ t.dev.openPasses c v = some 3 ∧
      t.dev.openPasses c { v with chainOk := false } = none) := by decide +kernel

/-- The witness of QueueResetStopsAndResumesASession: a request, its reset point, a marker, and the answer of an open
and of a frozen session. -/
theorem test_w_queue_reset :
    let q1 := cmd0 Op.queueReset (be 2 5 ++ zeros 2)
    let q2 := { cmd0 Op.queueReset [] with markers := [15] }
    let q4 := { q1 with resume := 2 }
    let c4 := { ctx0 with resetBy := some 7 }
    let q3 := { cmd0 Op.queueReset [] with st := .running }
    (let s := ask q1 id
     s.dev.alive = true ∧ s.dev.cmd 7 = some q1 ∧ q1.op = Op.queueReset ∧ q1.st = .inSession ∧
      q1.gotAll = true ∧ q1.resume = 0 ∧ (∀ i ∈ s.dev.ses.ctx.map (·.1), i = 5) ∧ fieldBe q1.payload 0 2 % 16384 = q1.sid ∧ s.dev.ctx q1.sid = some ctx0 ∧
      ctx0.st ≠ .closing ∧ ctx0.st ≠ .opening ∧ ctx0.resetBy = none) ∧
    (let s := sess c4 fun d => { d with disp := { d.disp with cmds := [(7, q4)] } }
     s.dev.alive = true ∧ s.dev.cmd 7 = some q4 ∧ q4.op = Op.queueReset ∧ q4.st = .inSession ∧ q4.gotAll = true ∧
      q4.resume ≠ 0 ∧ s.dev.ctx (fieldBe q4.payload 0 2 % 16384) = some c4 ∧ c4.resetBy = some 7) ∧
    (let c := { ctx0 with st := .frozen }
     let s := sess c fun d => { d with disp := { d.disp with cmds := [(7, q3)] } }
     s.dev.cmd 7 = some q3 ∧ s.dev.resetWaits q3 7 = false ∧ s.dev.ctx q3.sid = some c ∧ c.msgs = [] ∧
      c.st = .frozen ∧ c.admin = true) ∧
    (let s := ask q2 id
     s.dev.cmd 7 = some q2 ∧ (15 : Fin 16) ∈ q2.markers ∧ s.dev.swFrozen 15 = false ∧
      s.dev.resetting (.swath 15) = false) ∧
    (let s := ask q3 id
     s.dev.cmd 7 = some q3 ∧ q3.st = .running ∧ s.dev.resetWaits q3 7 = false ∧ q3.target = q3.sid ∧
      s.dev.ctx q3.sid = some ctx0 ∧ ctx0.msgs = [] ∧ ctx0.st = .opened) := by decide +kernel

/-- The witness of ReadsAreAnsweredWithTheirSnapshot: a hit; a value of one byte by each read, its range
at its end; a key that is not there. -/
theorem test_w_reads :
    let h := { cmd0 Op.get (blk 0 0 0 0 0 [0x6B] []) with key := [0x6B] }
    let s := ask h fun d => { at_ Base.dsp F.DSP_FC_CTRL_FC_EN 1 d with disp := { d.disp with fc := [fc0] } }
    let g (op : Nat) := read0 op (blk 0 1 0 1 0 [0x6B] []) snap0
    let n (op : Nat) := read0 op (blk 0 1 0 1 0 [0x6B] []) { snap0 with found := false }
    (s.dev.alive = true ∧ s.dev.cmd 7 = some h ∧ s.dev.ctx h.sid = some ctx0 ∧ h.op = Op.get ∧
      s.dev.fcHit 7 h = some fc0 ∧ h.block.ifVersion = false) ∧
    (∀ op ∈ [Op.get, Op.getRange, Op.head],
      let q := g op
      let t := ask q id
      t.dev.alive = true ∧ t.dev.cmd 7 = some q ∧ t.dev.ctx q.sid = some ctx0 ∧ q.snap = some snap0 ∧
      q.readReady = true ∧ q.started = false ∧ q.respSeqs = [] ∧ snap0.found = true ∧ snap0.recBad = false ∧
      snap0.lost = [] ∧ t.dev.swRuns snap0.swath = true ∧ snap0.value.length = snap0.length ∧ snap0.length ≤ 4194304 ∧
      q.block.ifVersion = false ∧ t.dev.unsentOf q.sid 7 = [] ∧ q.op = op ∧ t.dev.fcHit 7 q = none ∧
      q.block.offset ≤ snap0.length ∧ q.block.len ≠ 0xFFFFFFFF) ∧
    (∀ op ∈ [Op.get, Op.getRange, Op.head],
      let q := n op
      let t := ask q id
      t.dev.cmd 7 = some q ∧ t.dev.swRuns 0 = true ∧ q.snap = some { snap0 with found := false } ∧ q.readReady = true ∧
      q.started = false ∧ q.op = op ∧ t.dev.fcHit 7 q = none) := by decide +kernel

/-- The witness of ListsAnswerAndSheavesOpen: a LIST, a sheaf that opens and one that does not. -/
theorem test_w_lists :
    let q := { cmd0 Op.list (blk 0 1 0 0 0 [] (zeros 8 ++ be 8 (255 * 2 ^ 56))) with st := .running }
    let s := ask q fun d => (keys0 [key0] d).updSw 15 fun x => { x with ready := true }
    let sn := { snap0 with length := 4097, extents := [{ ext0 with sheaves := 2, made := { ext0.made with endAt := 4097 } }] }
    let g := { read0 Op.get [] sn with started := true, opened := 1 }
    let sb := { sn with tried := some (0, 1) }
    let gr := { read0 Op.getRange (blk 0 1 0 4096 0 [0x6B] []) sb with started := true }
    let t := ask g (keys0 [key0])
    let tr := ask gr id
    (s.dev.alive = true ∧ s.dev.cmd 7 = some q ∧ s.dev.ctx q.sid = some ctx0 ∧ q.op = Op.list ∧
      q.st = .running ∧ q.gotAll = true) ∧
    ((∀ t ∈ List.range 256, q.cursor / 2 ^ 56 ≤ t → (s.dev.listSources q.space t).isSome = true) ∧
      (∀ n : Fin 16, ∀ k ∈ (s.dev.sw n).keys, (s.dev.sw n).recLost k = false)) ∧
    (t.dev.alive = true ∧ t.dev.cmd 7 = some g ∧ g.snap = some sn ∧ sn.swath = 0 ∧ t.dev.swRuns 0 = true ∧
      g.op = Op.get ∧ g.started = true ∧ g.failed = false ∧ sn.recBad = false ∧
      g.opened < sheafSpan (g.range sn.length).1 (g.range sn.length).2 ∧
      (g.range sn.length).1 / 4096 + g.opened = 1 ∧ 1 ∉ sn.lost ∧ g.answered = false ∧
      t.dev.snapOpens 0 g sn 1 = true ∧ sn.tried = none) ∧
    (tr.dev.cmd 7 = some gr ∧ tr.dev.swRuns 0 = true ∧ gr.op = Op.getRange ∧ gr.failed = false ∧
      gr.opened < sheafSpan (gr.range sb.length).1 (gr.range sb.length).2 ∧
      (gr.range sb.length).1 / 4096 + gr.opened = 1 ∧ 1 ∉ sb.lost ∧ gr.answered = false ∧
      tr.dev.snapOpens 0 gr sb 1 = true ∧ sb.tried.isSome = true) ∧
    (let b := { g with hash := 1, snap := some sb }
     let u := ask b (keys0 [key0])
     u.dev.snapOpens 0 b sb 1 = false ∧ sb.tried.map (·.2) = some 1 ∧ u.dev.ctx 5 = some ctx0 ∧
      u.dev.unsentOf 5 7 = [] ∧
      ((u.dev.sw 0).find b.space b.key).map (fun k => k.version) = some sb.version) := by decide +kernel

/-- The witness of AdmissionAndChains. -/
theorem test_w_admission :
    let q := { cmd0 Op.put (blk 1 1 0 0 1 [0x6B] [9]) with key := [0x6B], rule := some rule0, st := .waitRes }
    let s := ask q fun d => { d.updSw 0 (fun x => { x with ready := true }) with
      disp := { d.disp with wait := [7], lfree := [(0, 1)], pfree := [(0, 4608)] } }
    let l := { cmd0 Op.list (blk 0 0 0 0 0 [] []) with st := .waitRes }
    let v := ask l fun d => { d with disp := { d.disp with wait := [7] } }
    let w := ask l fun d => { d with
      disp := { d.disp with wait := [7] }, adm := { d.adm with jobs := [(512, ⟨1, 0, 0, 0, 0, 0⟩)] } }
    let a := { q with st := .reserved, owners := [0] }
    let t := ask a fun d => { d with disp := { d.disp with inbound := [(0, 7)] } }
    let b := { q with st := .chained, owners := [0], arrived := [0] }
    let u := ask b fun d => d.updSw 0 fun x => { x with haz := [⟨.cmd 7, 0, 0⟩], ready := true }
    (s.dev.alive = true ∧ s.dev.cmd 7 = some q ∧ s.dev.ctx q.sid = some ctx0 ∧ s.dev.disp.wait = [7] ∧
      q.rule.isSome = true ∧ s.dev.resetting .dispatcher = false ∧ s.dev.eraseHolds q.space = false ∧
      s.dev.shutting = false ∧ streamBusy ctx0 q = false ∧ s.dev.ownersOf q = some [0] ∧
      s.dev.slotsFree [0] = true ∧ s.dev.pw.pfActive = false ∧ q.op ≠ Op.list ∧ (s.dev.sw 0).fallow = false ∧
      q.charges.1 ≤ lookD 0 0 s.dev.disp.lfree ∧ (q.charges.2 : Int) ≤ s.dev.pfreeOf 0 ∧ q.st = .waitRes) ∧
    (v.dev.alive = true ∧ v.dev.cmd 7 = some l ∧ v.dev.ctx l.sid = some ctx0 ∧ v.dev.disp.wait = [7] ∧ l.op = Op.list ∧
      v.dev.pw.pfActive = false ∧ v.dev.resetting .dispatcher = false ∧ v.dev.eraseHolds l.space = false ∧
      v.dev.shutting = false ∧ v.dev.slotsFree (v.dev.listOwners l.space (256 - l.listFrom) l.listFrom []) = true) ∧
    (w.dev.alive = true ∧ w.dev.cmd 7 = some l ∧ w.dev.ctx l.sid = some ctx0 ∧ w.dev.disp.wait = [7] ∧
      w.dev.pw.pfActive = false ∧ w.dev.resetting .dispatcher = false ∧ w.dev.eraseHolds l.space = true) ∧
    (t.dev.alive = true ∧ t.dev.cmd 7 = some a ∧ t.dev.swRuns 0 = true ∧ t.dev.disp.inbound.find? (fun e => e.1 == 0) = some (0, 7) ∧
      a.midPart = false) ∧
    (u.dev.alive = true ∧ u.dev.cmd 7 = some b ∧ u.dev.swRuns 0 = true ∧
      firstByPrio (u.dev.startable 0) = some (7, b) ∧ (7, b) ∈ u.dev.startable 0) := by decide +kernel

/-- The witness of WholeWritesAndStreamParts: a PUT, a CAS_PUT, a paired PUT on one copy, a stream part. -/
theorem test_w_whole_writes :
    (∀ op ∈ [Op.put, Op.casPut],
      let q := write0 op (blk 0 1 0 0 1 [0x6B] [9])
      let s := ask q (keys0 [])
      s.dev.alive = true ∧ s.dev.cmd 7 = some q ∧ s.dev.ctx q.sid = some ctx0 ∧ q.runsAt 0 = true ∧
      q.buffered 0 = true ∧ s.dev.swRuns 0 = true ∧ s.dev.judge q false = none ∧ q.owners = [0] ∧
      q.slotsOn = [0] ∧ (s.dev.sw 0).find q.space q.key = none ∧
      q.passed = [] ∧ ((s.dev.sw 0).spotFor ((s.dev.sw 0).matched q.space q.key q.hash) q.hash).isSome = true ∧
      s.dev.HasRoom 0 q.space q.key ((s.dev.sw 0).matched q.space q.key q.hash) ∧
      s.dev.isPaired q = false ∧ q.op = op) ∧
    (let q := write0 Op.put (blk 0 1 0 0 1 [0x6B] [9])
     let s := ask q (keys0 [] ∘ pairSpace)
     s.dev.alive = true ∧ s.dev.cmd 7 = some q ∧ q.runsAt 0 = true ∧ q.buffered 0 = true ∧
      s.dev.ctx q.sid = some ctx0 ∧ s.dev.swRuns 0 = true ∧ s.dev.judge q false = none ∧ q.owners = [0] ∧
      q.slotsOn = [0] ∧ q.passed = [] ∧
      ((s.dev.sw 0).spotFor ((s.dev.sw 0).matched q.space q.key q.hash) q.hash).isSome = true ∧
      s.dev.HasRoom 0 q.space q.key ((s.dev.sw 0).matched q.space q.key q.hash) ∧ s.dev.isPaired q = true) ∧
    (let q := write0 Op.putStream (blk 0 1 0 0 2 [0x6B] [9])
     let x := { stream0 with parts := [7] }
     let c := { ctx0 with streams := [x] }
     let s := sess c fun d => keys0 [] { d with disp := { d.disp with cmds := [(7, q)] } }
     s.dev.alive = true ∧ s.dev.cmd 7 = some q ∧ s.dev.ctx q.sid = some c ∧ q.op = Op.putStream ∧
      q.midPart = true ∧ q.runsAt 0 = true ∧ q.buffered 0 = true ∧ q.owners = [0] ∧ q.slotsOn = [0] ∧
      s.dev.swRuns 0 = true ∧ c.streams = [x] ∧ x.space = q.space ∧ x.key = q.key ∧ 7 ∈ x.parts) := by
  unfold Dev.HasRoom
  decide +kernel

/-- The witness of RangeWritesOverlayTheOldValue, for writes of one piece. -/
theorem test_w_range_writes :
    ∀ op ∈ [Op.writeRange, Op.append],
      let q := write0 op (blk 0 1 0 1 0 [0x6B] [9])
      let s := ask q (keys0 [key0])
      s.dev.alive = true ∧ s.dev.cmd 7 = some q ∧ s.dev.ctx q.sid = some ctx0 ∧ q.runsAt 0 = true ∧
      s.dev.swRuns 0 = true ∧ s.dev.isPaired q = false ∧ q.owners = [0] ∧ q.slotsOn = [0] ∧
      q.pieces = [] ∧ s.dev.judge q false = none ∧ (s.dev.sw 0).find q.space q.key = some key0 ∧
      (∀ i < sheavesOf key0.value.length, s.dev.sheafOpens key0 i = true) ∧ key0.extents.length ≤ 64 ∧
      0 < q.len ∧ q.len ≤ q.data.length ∧ s.dev.HasRoom 0 q.space q.key (some key0) ∧
      q.buffered 0 = true ∧ q.len ≤ 1048576 ∧ q.op = op := by
  unfold Dev.HasRoom
  decide +kernel

/-- The same for a write of two pieces. -/
theorem test_w_range_pieces :
    let data := List.replicate 1048577 (0 : Byte)
    let q := write0 Op.writeRange (blk 0 1048577 0 1 0 [0x6B] data)
    let s := ask q (keys0 [key0])
    s.dev.cmd 7 = some q ∧
    (s.dev.alive = true ∧ s.dev.ctx q.sid = some ctx0 ∧ q.runsAt 0 = true ∧ s.dev.swRuns 0 = true ∧
      s.dev.isPaired q = false ∧ q.owners = [0] ∧ q.slotsOn = [0] ∧ q.pieces = [] ∧ s.dev.judge q false = none ∧
      (s.dev.sw 0).find q.space q.key = some key0 ∧
      (∀ i < sheavesOf key0.value.length, s.dev.sheafOpens key0 i = true) ∧ key0.extents.length ≤ 64 ∧ 0 < q.len ∧
      s.dev.HasRoom 0 q.space q.key (some key0) ∧ 1048576 < q.len ∧ q.gotAll = true ∧
      unitsFor 1048576 ≤ lookD 0 0 q.taken ∧ q.op = Op.writeRange) ∧
    q.len ≤ q.data.length := by
  refine ⟨rfl, by unfold Dev.HasRoom; decide +kernel, ?_⟩
  have h : ∀ l : List Byte, dataOf (blk 0 1048577 0 1 0 [0x6B] l) = l := fun _ => rfl
  have hl : (write0 Op.writeRange (blk 0 1048577 0 1 0 [0x6B] (List.replicate 1048577 (0 : Byte)))).len =
    1048577 := by decide +kernel
  exact Nat.le_of_eq (hl.trans ((congrArg List.length (h _)).trans List.length_replicate).symm)

/-- The witness of RemovalsHoldsAndSecureDiscards. -/
theorem test_w_removals :
    (∀ op ∈ [Op.delete, Op.discardSecure, Op.hold],
      let q := write0 op (blk 0 0 0 0 1 [0x6B] [])
      let s := ask q (keys0 [key0])
      s.dev.alive = true ∧ s.dev.cmd 7 = some q ∧ s.dev.ctx q.sid = some ctx0 ∧ q.runsAt 0 = true ∧
      s.dev.swRuns 0 = true ∧ q.owners = [0] ∧ q.slotsOn = [0] ∧ s.dev.judge q false = none ∧
      (s.dev.sw 0).find q.space q.key = some key0 ∧ s.dev.HasRoom 0 q.space q.key (some key0) ∧
      (s.dev.sw 0).fallow = false ∧ q.op = op) ∧
    (let x : Discard := ⟨7, 0, [0x6B], 0, 1, true, [], false⟩
     let s := run fun d => d.updSw 0 fun w => { w with discards := [x], ready := true }
     s.dev.alive = true ∧ (s.dev.sw 0).discards.find? (fun y => y.cid == 7 && y.begun && !y.wiped) = some x ∧
      s.dev.pinned 0 x.space x.key = false ∧ s.dev.swRuns 0 = true) ∧
    (let x : Discard := ⟨7, 0, [0x6B], 0, 1, true, [], true⟩
     let q := { write0 Op.discardSecure (blk 0 0 0 0 0 [0x6B] []) with started := true, passed := [0] }
     let s := ask q fun d => d.updSw 0 fun w => { w with discards := [x] }
     s.dev.alive = true ∧ s.dev.cmd 7 = some q ∧ s.dev.ctx q.sid = some ctx0 ∧ q.op = Op.discardSecure ∧
      q.started = true ∧ q.answered = false ∧ x ∈ (s.dev.sw 0).discards ∧
      (∀ m : Fin 16, ∀ y ∈ (s.dev.sw m).discards, y.cid = 7 → y.wiped = true ∧ y.targets = []) ∧
      s.dev.stillRetained q.space q.hash = false) := by
  unfold Dev.HasRoom
  decide +kernel

/-- The witness of PairedCopiesReportAndCatchUp: the second report, and a copy that is ahead. -/
theorem test_w_pairs :
    (let q := { write0 Op.put (blk 0 1 0 0 1 [0x6B] [9]) with owners := [0, 8], ready := [8] }
     let s := ask q (keys0 [] ∘ pairSpace)
     s.dev.alive = true ∧ s.dev.cmd 7 = some q ∧ isWrite q.op = true ∧ q.midPart = false ∧
      s.dev.isPaired q = true ∧ q.runsAt 0 = true ∧ q.buffered 0 = true ∧ (0 : Fin 16) ∉ q.ready ∧
      s.dev.swRuns 0 = true) ∧
    (let h := Dev.reset.keyedHash 0 [0x6B]
     let n := (Dev.reset.slot (hashSlot h)).owner
     let m := (Dev.reset.slot (hashSlot h)).partner
     let k := { key0 with hash := h, ahead := true, paired := true }
     let s := run fun d =>
       let d := (d.updSw n fun x => { x with keys := [k], ready := true }).updSw m fun x => { x with ready := true }
       { d with disp := { d.disp with lfree := [(m.val, 1)], pfree := [(m.val, 4608)], kfree := [(m.val, 1)] } }
     s.dev.alive = true ∧ (s.dev.slot (hashSlot (s.dev.keyedHash 0 [0x6B]))).owner = n ∧
      (s.dev.slot (hashSlot (s.dev.keyedHash 0 [0x6B]))).partner = m ∧ m ≠ n ∧ s.dev.online n = true ∧
      s.dev.online m = true ∧ s.dev.chainClear n 0 (s.dev.keyedHash 0 [0x6B]) = true ∧
      s.dev.chainClear m 0 (s.dev.keyedHash 0 [0x6B]) = true ∧ (s.dev.sw n).ring.length < ringCap ∧
      (s.dev.sw n).find 0 [0x6B] = some k ∧ k.ahead = true ∧ (s.dev.sw m).find 0 [0x6B] = none ∧
      (s.dev.sw n).recLost k = false ∧ s.dev.HasRoom m 0 [0x6B] (some k) ∧
      ((s.dev.sw m).place k.hash).isSome = true ∧ k.value.length ≤ lookD m.val 0 s.dev.disp.lfree ∧
      (physOf k.value.length : Int) ≤ s.dev.pfreeOf m ∧ 0 < lookD m.val 0 s.dev.disp.kfree) := by
  unfold Dev.HasRoom
  decide +kernel

/-- The witness of MatchEntriesAreChangedByCommands, the last entries of the table among its edges. -/
theorem test_w_tcam :
    (let s := polOf id
     s.dev.alive = true ∧ s.dev.flag Base.pol F.POL_TC_STAT_BUSY = false ∧ (s.dev.tcEnt 0).valid = false ∧
      (4094 : Fin 4096) < 4095 ∧ (s.dev.tcEnt 4095).valid = false ∧ (s.dev.tcEnt 4094).valid = false) ∧
    (let s := polOf fun p => { p with tc := [(4095, tc0 true)] }
     s.dev.alive = true ∧ (s.dev.tcEnt 4095).valid = true) ∧
    ((0 : BitVec 3).toNat = 0 ∧ 6 ≤ (7 : BitVec 3).toNat) ∧
    (let s := polOf fun p => { p with shift := some ⟨true, 0, 1, 0, 1⟩ }
     s.dev.alive = true ∧ s.dev.pol.shift = some ⟨true, 0, 1, 0, 1⟩) ∧
    (let s := polOf fun p => { p with shift := some ⟨false, 0, 1, 1, 1⟩ }
     s.dev.alive = true ∧ s.dev.pol.shift = some ⟨false, 0, 1, 1, 1⟩ ∧ 0 < 1) := by decide +kernel

/-- The witness of MatcherWindowsAndBanksAct: the shadow bank; the active one, writable and not; both
ends of a swap request; a swap; a test. -/
theorem test_w_windows_and_banks :
    (let s := polOf id
     s.dev.alive = true ∧ bitsOf (s.dev.pathReg .steward Addr.tcAddr) 0 5 ≤ 21 ∧
      (s.dev.pathReg .steward Addr.paAddr).getLsbD 23 = false ∧
      bitsOf (s.dev.pathReg .steward Addr.paAddr) 0 22 ≤ 0x22553F ∧
      bankChecks s.dev.shadowBank = true ∧ s.dev.digestsAgree = true ∧ s.dev.pol.testing = none ∧
      s.dev.pol.tkeyAt < 512) ∧
    (let a := 0x00A24800#32
     let s := run fun d => d.setPathReg .steward Addr.paAddr a
     s.dev.alive = true ∧ s.dev.pathReg .steward Addr.paAddr = a ∧ a.getLsbD 23 = true ∧
      s.dev.activeWriteRefused (bitsOf a 0 22) (0x80000000#32 &&& paMask (bitsOf a 0 22)) = false ∧
      s.dev.activeWriteRefused (bitsOf a 0 22) (0x80000401#32 &&& paMask (bitsOf a 0 22)) = false) ∧
    (let a := 0x00800000#32
     let s := run fun d => d.setPathReg .steward Addr.paAddr a
     s.dev.pathReg .steward Addr.paAddr = a ∧ a.getLsbD 23 = true ∧
      s.dev.activeWriteRefused (bitsOf a 0 22) (1#32 &&& paMask (bitsOf a 0 22)) = true) ∧
    (let s := polOf fun p => { p with bankB := [(0x225406, 1#32)] }
     s.dev.alive = true ∧ (bankChecks s.dev.shadowBank && s.dev.digestsAgree) = false ∧
      bankChecks s.dev.shadowBank = false) ∧
    (let s := run (at_ Base.pol F.POL_PA_STAT_PENDING 1)
     s.dev.alive = true ∧ s.dev.flag Base.pol F.POL_PA_STAT_PENDING = true ∧ s.dev.lanesBusy = 0) ∧
    (let o := { bad := false, rule := some 1, multi := false, final := 0 }
     let s := polOf fun p => { p with testing := some o }
     s.dev.alive = true ∧ s.dev.pol.testing = some o ∧ s.dev.lanesBusy < 16) ∧
    (1 ≤ (512 : BitVec 10).toNat ∧ (512 : BitVec 10).toNat ≤ 512) := by decide +kernel

/-- The witness of KeysRunInLanesAndTheSweepRepairs: a key waits; a lane ends in a bad state, without a
rule, and with one. -/
theorem test_w_lanes :
    (let s := polOf fun p => { p with keys := [(3, ⟨0, [0x6B], none⟩)], keyNo := 4 }
     s.dev.alive = true ∧ s.dev.flag Base.pol F.POL_PA_STAT_PENDING = false ∧ s.dev.nextLaneKey = some 3 ∧
      s.dev.freeLane = some 0) ∧
    (let q := { cmd0 Op.put [] with keyNo := some 3 }
     let x : KeyRun := ⟨0, [0x6B], none⟩
     let s (t : Tbl Word) := ask q fun d => at_ Base.pol F.POL_CTRL_PA_EN 1
       { d with pol := { d.pol with bankA := t, keys := [(3, x)], keyNo := 4, lanes := [(15, 3)] } }
     let ok (t : Tbl Word) : Prop := (s t).dev.alive = true ∧
       look (15 : Fin 16).val (s t).dev.pol.lanes = some 3 ∧ look 3 (s t).dev.pol.keys = some x ∧
       (s t).dev.disp.cmds.find? (fun e => e.2.keyNo == some 3 && e.2.rule.isNone) = some (7, q) ∧
       (s t).dev.cmd 7 = some q ∧ (s t).dev.flag Base.pol F.POL_CTRL_PA_EN = true ∧
       spaceSet (s t).dev.activeBank x.space = some 0
     (ok [(0x225440, 8#32)] ∧ (runSet (s [(0x225440, 8#32)]).dev.activeBank 0 [0x6B]).bad = true) ∧
     (ok (bank0 0) ∧ (runSet (s (bank0 0)).dev.activeBank 0 [0x6B]).bad = false ∧
       (runSet (s (bank0 0)).dev.activeBank 0 [0x6B]).rule = none) ∧
     (ok (bank0 1) ∧ (runSet (s (bank0 1)).dev.activeBank 0 [0x6B]).bad = false ∧
       (runSet (s (bank0 1)).dev.activeBank 0 [0x6B]).rule = some 1)) := by decide +kernel

/-- A journal record that changes segment 3. -/
def jrec0 (r : Nat) : JRec where
  type := 1; space := 0; eflags := 0; lenCode := 0; hash := 0; rseq := r; loc := 0; oldLoc := 0; tagSeq := 0
  segs := [3]; was := none

/-- The witness of CheckpointPassesFreeTheJournal: a pass that is due by its period, one forced during another,
the end of a pass whose records are freed, and a rebuild that found one key's record and not the other's. -/
theorem test_w_checkpoint :
    (let s := run fun d => { d.updSw 15 fun x => { x with ready := true, dirty := [3] } with now := 4096000 }
     s.dev.alive = true ∧ (s.dev.sw 15).pass = none ∧ (s.dev.sw 15).ready = true ∧ s.dev.swRuns 15 = true ∧
      s.dev.passDue 15 = true) ∧
    (let s := sw15 fun x => { x with ready := true, pass := some (5, [3]), ring := [jrec0 5, jrec0 6] }
     s.dev.alive = true ∧ (s.dev.sw 15).pass = some (5, [3]) ∧ s.dev.swRuns 15 = true ∧
      s.dev.NoneWaits 15) ∧
    (let s := run fun d => at_ (Base.sw 15) F.SW_IDX_REBUILD_ACTIVE 1 (d.updSw 15 fun x => { x with
       rebuild := [0], keys := [key0, { key0 with key := [0x6C], recBad := true }] })
     s.dev.alive = true ∧ s.dev.flag (Base.sw 15) F.SW_IDX_REBUILD_ACTIVE = true ∧
      (s.dev.sw 15).notFound key0 = false ∧
      (s.dev.sw 15).notFound { key0 with key := [0x6C], recBad := true } = true) := by
  unfold Dev.NoneWaits
  decide +kernel

/-- The witness of ValuesJoinAndBucketsRefill: a value of one sheaf in 65 extents, a sheaf that fails, and a chain
of one key whose group has room. -/
theorem test_w_joins :
    (let k := { key0 with extents := List.replicate 65 ext0 }
     let s := sw15 fun x => { x with keys := [k], ready := true }
     s.dev.alive = true ∧ (s.dev.sw 15).find 0 [0x6B] = some k ∧ 64 < k.extents.length ∧
      (s.dev.sw 15).recLost k = false ∧ (s.dev.sw 15).lostSheaves k = [] ∧ s.dev.spent 15 = false ∧
      s.dev.swRuns 15 = true ∧ s.dev.HasRoom 15 0 [0x6B] (some k) ∧
      k.value.length ≤ 4294967295 ∧ (s.dev.sw 15).count + 2 ≤ 2 ^ 59 ∧
      (∀ i < sheavesOf k.value.length, s.dev.sheafOpens k i = true)) ∧
    (let k := { key0 with ovf := some 2 }
     let l : Link := ⟨1, [2]⟩
     let s := sw15 fun x => { x with keys := [k], links := [(0, l)] }
     s.dev.alive = true ∧ look 0 (s.dev.sw 15).links = some l ∧ l.chain ≠ [] ∧ (s.dev.sw 15).InOrder ∧
      (s.dev.sw 15).keys = [k] ∧
      (s.dev.sw 15).refillFrom 0 = some (k, { alt := false, ovf := none, ent := 0 }) ∧
      (s.dev.sw 15).ring.length < ringCap) := by
  unfold Dev.HasRoom Swath.InOrder
  decide +kernel

/-- The witness of CodewordReadsEscalate: a unit of no key in its last place, on the last die; a host read that
finds a program there, and one that finds an erase. -/
theorem test_w_codewords :
    let w := 0x40000000#32 + 31 * 4
    let s (o : DieOp) := run fun d => at_ (Base.sw 15) F.SW_NAND_LDPC_SOFT_EN 1 (at_ (Base.sw 15) F.SW_NAND_LDPC_PARITY_EN 1
      (at_ (Base.sw 15) F.SW_NAND_LDPC_RETRY_MAX 7
        (d.updSw 15 fun x => { x with map := [(0, w)], sbs := [(0, sb0 .qlcFull)], ops := [(31, o)] })))
    (∀ op ∈ [NandOp.read, NandOp.program, NandOp.erase],
      let t := s (op0 op)
      t.dev.alive = true ∧ t.dev.swRuns 15 = true ∧ w = (t.dev.sw 15).mapAt 0 ∧ mapState w = 1 ∧
      bitsOf w 2 5 = (31 : Fin 32).val ∧ ppaSb (bitsOf w 0 30) = 0 ∧
      look (31 : Fin 32).val (t.dev.sw 15).ops = some (op0 op) ∧ (op0 op).held = false ∧
      t.dev.flag (Base.sw 15) F.SW_NAND_SUSP_EN = true ∧
      t.dev.fld (Base.sw 15) F.SW_NAND_SUSP_MIN_RUN_US ≤ 1000000 ∧
      (op0 op).susp < t.dev.fld (Base.sw 15) F.SW_NAND_SUSP_ERASE_MAX ∧
      (op0 op).susp < t.dev.fld (Base.sw 15) F.SW_NAND_SUSP_PROG_MAX ∧ t.dev.pw.lowering = false ∧
      7 ≤ t.dev.fld (Base.sw 15) F.SW_NAND_LDPC_RETRY_MAX ∧
      t.dev.fld (Base.sw 15) F.SW_MED_WL_REFRESH_RETRY ≤ 7 ∧
      t.dev.flag (Base.sw 15) F.SW_NAND_LDPC_SOFT_EN = true ∧
      t.dev.flag (Base.sw 15) F.SW_NAND_LDPC_PARITY_EN = true ∧ (t.dev.sw 15).keysIn 0 = [] ∧
      ((t.dev.sw 15).sb 0).st ≠ .erased ∧ ((t.dev.sw 15).sb 0).st ≠ .retired) := by decide +kernel

/-- The witness of MediaWorkStarts. -/
theorem test_w_media_starts :
    (let s := sw15 fun x => { x with ready := true, units := [(3, ⟨.held, none, 0, [0x6B], 1, false⟩)] }
     s.dev.alive = true ∧ s.dev.swRuns 15 = true ∧ (s.dev.sw 15).mode ≠ 3 ∧ s.dev.drainDue 15 = true) ∧
    (let s := sw15 fun x => { x with packOpen := some 4, pack := [(4, ⟨0, [], false⟩)] }
     s.dev.alive = true ∧ (s.dev.sw 15).packOpen = some 4 ∧ look 4 (s.dev.sw 15).pack = some ⟨0, [], false⟩) ∧
    (let s := run fun d => at_ (Base.sw 15) F.SW_MED_TED_LO 1 (d.updSw 15 fun x => { x with
       sbs := [(2, sb0 .slcFull)], map := [(0, 0x40100000#32)] })
     s.dev.alive = true ∧ s.dev.swRuns 15 = true ∧ (s.dev.sw 15).ted = none ∧
      (s.dev.sw 15).oldestSlc = some 2 ∧ (s.dev.sw 15).drainWaits = false ∧
      s.dev.fld (Base.sw 15) F.SW_MED_TED_LO ≤ ((s.dev.sw 15).countSb fun x => x.st == .slcFull) ∧
      (s.dev.sw 15).validIn 2 ≠ [] ∧ sorted (s.dev.sw 15).sbs = true) ∧
    (let o := { op0 .program with held := true, susp := 1, reads := 1 }
     let s := sw15 fun x => { x with ops := [(31, o)] }
     s.dev.alive = true ∧ look (31 : Fin 32).val (s.dev.sw 15).ops = some o) := by decide +kernel

/-- The witness of ProgramsAndErasesChangeTheirSuperblock: a program of one unit of an open SLC superblock; one of the
second wordline of an open QLC superblock, whose first one waits. -/
theorem test_w_programs :
    (let m : UnitMove := ⟨5, 0xC0000000#32, 3 * 2 ^ 19⟩
     let s := sw15 fun x => { x with
       slcOpen := some 3, sbs := [(3, { sb0 .slcOpen with slc := true })], ops := [(0, op0 .program)] }
     s.dev.alive = true ∧ s.dev.swRuns 15 = true ∧ (s.dev.sw 15).mode ≠ 3 ∧
      look (0 : Fin 32).val (s.dev.sw 15).ops = some (op0 .program) ∧ (op0 .program).op = .program ∧
      (op0 .program).held = false ∧ (s.dev.sw 15).ring.length + [m].length + 1 ≤ ringCap ∧
      s.dev.streamAt 15 .drain 0 3 = some (s.dev, .slc) ∧ (s.dev.sw 15).dstOk 3 0 m.dst = true ∧
      oneRow ((s.dev.sw 15).sb 3).slc [m] = true ∧ (s.dev.sw 15).stranded = [] ∧ (s.dev.sw 15).unready = [] ∧
      ((s.dev.sw 15).sb 3).slc = true) ∧
    (let w : Unready := ⟨3, 0, 0, .tedding, ⟨6, 0x40200000#32, 3 * 2 ^ 19⟩⟩
     let m : UnitMove := ⟨5, 0x40200004#32, 3 * 2 ^ 19 + 512⟩
     let s := sw15 fun x => { x with
       hostOpen := some 3, sbs := [(3, sb0 .qlcOpen)], ops := [(0, op0 .program)], unready := [w] }
     s.dev.alive = true ∧ s.dev.swRuns 15 = true ∧ (s.dev.sw 15).mode ≠ 3 ∧
      look (0 : Fin 32).val (s.dev.sw 15).ops = some (op0 .program) ∧
      (s.dev.sw 15).ring.length + [m].length + 1 ≤ ringCap ∧
      s.dev.streamAt 15 .tedding 0 3 = some (s.dev, .host) ∧ (s.dev.sw 15).dstOk 3 0 m.dst = true ∧
      oneRow ((s.dev.sw 15).sb 3).slc [m] = true ∧ (s.dev.sw 15).stranded = [] ∧ (s.dev.sw 15).unready = [w] ∧
      w.sb = 3 ∧ w.die = (0 : Fin 32).val ∧ ((s.dev.sw 15).sb 3).slc = false ∧
      ((s.dev.sw 15).sb 3).written + 1 < sbPages false ∧ w.row < ppaRow false m.dst ∧
      ppaRow false m.dst < lastRow) := by decide +kernel

/-- The same for a program that fails; the last two dies of an erase, with and without a failed block; a second block
that fails on a die that has reported. -/
theorem test_w_erases :
    (let s := sw15 fun x => { x with
       slcOpen := some 3, sbs := [(3, { sb0 .slcOpen with slc := true })], ops := [(0, op0 .program)] }
     look (0 : Fin 32).val (s.dev.sw 15).ops = some (op0 .program) ∧
      s.dev.streamAt 15 .drain 0 3 = some (s.dev, .slc) ∧ (0 : Nat) ∉ ((s.dev.sw 15).sb 3).failed) ∧
    (let x (k : Nat) (l : List Nat) := { sb0 .erasing with erasedOn := List.range k, failed := l }
     let s (k : Nat) (l : List Nat) := sw15 fun w => { w with
       sbs := [(3, x k l), (4, sb0 .gleaning)], glean := some (4, false), map := [(0, 0x40200000#32)],
       ops := [(31, op0 .erase)], spares := [(127, [])] }
     (∀ k ∈ [30, 31], ∀ l ∈ [[], [127]],
      (s k l).dev.alive = true ∧ (s k l).dev.swRuns 15 = true ∧ ((s k l).dev.sw 15).wipe = none ∧
      ((s k l).dev.sw 15).sb 3 = x k l ∧ (x k l).st = .erasing ∧
      look (31 : Fin 32).val ((s k l).dev.sw 15).ops = some (op0 .erase) ∧ (op0 .erase).op = .erase ∧
      (op0 .erase).held = false ∧ sorted ((s k l).dev.sw 15).sbs = true ∧
      (31 : Fin 32).val ∉ (x k l).erasedOn ∧ k = (x k l).erasedOn.length ∧
      ((s k l).dev.sw 15).sparesIn 127 = []) ∧
     (30 : Fin 32).val ∈ (x 31 []).erasedOn ∧ 30 * 4 + (3 : Fin 4).val ∉ (x 31 []).failed) := by decide +kernel

/-- The witness of PatrolLogsAndRepairs: a swath as filled, a corrected beat, a bad one; a swath without slots
and one with; a page to retire. -/
theorem test_w_patrol :
    (let s := run (at_ (Base.sw 0) F.SW_MEM_CTRL_PATROL_H 12)
     let e (err : List Byte) := s.dev.updSw 0 fun w => w.upset 0 3 err
     s.dev.alive = true ∧ s.dev.fld (Base.sw 0) F.SW_MEM_CTRL_PATROL_H ≠ 0 ∧ s.dev.swRuns 0 = true ∧
      (s.dev.sw 0).liesAt 0 .pageMap = true ∧ (s.dev.sw 0).patrolAt = 0 ∧ 0 ≠ lastGranule ∧
      ((e []).sw 0).knownGranules 0 lastGranule = [] ∧
      (∀ x ∈ [([0, 0, 0, 0, 0, 0, 0, 0, 0, 1], BeatIs.corrected 9), ([1, 1, 0, 0, 0, 0, 0, 0, 0, 0], .bad)],
        ((e x.1).sw 0).knownGranules 0 0 = [0] ∧ (3, x.2) ∈ (e x.1).granuleRead 0 0 ∧
        ∀ y ∈ (e x.1).granuleRead 0 0, y.1 ≠ 3 → y.2 = .good) ∧
      s.dev.flag (Base.sw 0) F.SW_MEM_UE_INFO_VALID = false ∧ s.dev.ownsSlots 0 = true) ∧
    (let s := run fun d => { d with disp := { d.disp with plc := evac0 } }
     s.dev.alive = true ∧ s.dev.ownsSlots 0 = false) ∧
    (let s := sw15 fun x => { x with ueOver := [32 * 8388607] }
     s.dev.alive = true ∧ s.dev.retires 15 8388607 = true ∧ s.dev.swRuns 15 = true ∧
      8388607 ∉ (s.dev.sw 15).remap ∧ (s.dev.sw 15).remap.length < 256) ∧
    (let s := sw15 fun x => { x with ueOver := [0xB000000], remap := (List.range 256).tail }
     s.dev.alive = true ∧ s.dev.retires 15 0x580000 = true ∧ s.dev.swRuns 15 = true ∧
      0x580000 ∉ (s.dev.sw 15).remap ∧ (s.dev.sw 15).remap.length = 255) := by
  decide +kernel

/-- Table 10-1's code: a beat of zeros is a codeword, and any change of one byte of it is corrected at
that byte. -/
theorem test_beat_corrects_each_device :
    ∀ j : Fin 10, decodeBeat none ((List.replicate 10 (0 : Byte)).set j.val 0x80) = .corrected j.val := by
  decide +kernel

/-- The witness of UncorrectableErrorsActByPlace. -/
theorem test_w_uncorrectable :
    (let s := run id
     s.dev.alive = true ∧ ¬(s.dev.underTest 0 = true ∧ s.dev.flag (Base.sw 0) F.SW_MEM_CHK_CTRL_EN = true) ∧
      s.dev.resetting (.swath 0) = false ∧ s.dev.resetting .sessionEngine = false ∧
      s.dev.resetting .policyMatcher = false ∧ s.dev.resetting .dispatcher = false ∧
      s.dev.resetting (.port .a) = false ∧ s.dev.swRuns 0 = true ∧
      s.dev.flag (Base.sw 0) F.SW_MEM_UE_INFO_VALID = false ∧
      s.dev.flag (Base.sw 0) F.SW_MEM_CHK_CTRL_KILL_EN = false ∧
      ∀ x ∈ s.dev.granuleRead 0 0xB000000, x.2 = .good) ∧
    (let s := run (at_ (Base.sw 0) F.SW_TST_STAT_ACTIVE 1 ∘ at_ (Base.sw 0) F.SW_TST_STAT_TEST 2 ∘
      at_ (Base.sw 0) F.SW_MEM_CHK_CTRL_EN 1)
     s.dev.alive = true ∧ s.dev.underTest 0 = true ∧ s.dev.flag (Base.sw 0) F.SW_MEM_CHK_CTRL_EN = true) ∧
    (let e := rx0 (skp0 (hdr0 1) [])
     let s := run fun d => d.updPort .a fun x => { x with rxq := [e] }
     s.dev.alive = true ∧ (s.dev.port .a).rxq[0]? = some e) ∧
    (let s := run id
     s.dev.swRuns 0 = true ∧ (s.dev.sw 0).liesAt (0xB000000 % 2 ^ 28) (.valueCache 5) = true ∧
      (s.dev.sw 0).liesAt (0 % 2 ^ 28) .pageMap = true ∧ (s.dev.sw 0).liesAt (0x2000000 % 2 ^ 28) .indexMain = true ∧
      (s.dev.sw 0).liesAt (0xA000000 % 2 ^ 28) .indexOverflow = true ∧
      (s.dev.sw 0).liesAt (0xF880000 % 2 ^ 28) .working = true ∧
      (s.dev.sw 0).liesAt (0xFFFC000 % 2 ^ 28) .testArea = true) := by decide +kernel

/-- R373: a line with three bits to correct takes a spare line and counts; with the last of 1,024 gone the swath
enters fallow. Two bits are only counted. -/
theorem test_line_read_back :
    (let d := (run id).dev
     let e := doStartGapMove 0 5 3 d
     (e.sw 0).spareLines = 524287 ∧ e.fld (Base.sw 0) F.SW_JM_CORR_COUNT = 1 ∧
      e.fld (Base.sw 0) F.SW_JM_RETIRED_COUNT = 1 ∧ (e.sw 0).fallow = false) ∧
    (let d := (run fun d => d.updSw 0 fun s => { s with spareLines := 1024 }).dev
     ((doStartGapMove 0 5 7 d).sw 0).fallow = true ∧ ((doStartGapMove 0 5 2 d).sw 0).fallow = false) := by
  decide +kernel

theorem exec_write (s : State) (al : Alloc) (h : s.dev.alive = true) :
    exec (.writeComplete 0 7 al none) s = .next { s with dev := doWriteComplete 0 7 al s.dev } := by
  simp [exec, execWriteComplete, State.live, State.act, h, doWriteSwitch]

/-- The same for a write of part of a beat with the switch of a write: the other bytes are good, or not. -/
theorem test_w_beat_write :
    let q := write0 Op.put (blk 0 1 0 0 1 [0x6B] [9])
    let s := ask q (keys0 [])
    let al : Alloc := ⟨0, 128, 0⟩
    let e := (doWriteComplete 0 7 al s.dev)
    s.dev.alive = true ∧ exec (.writeComplete 0 7 al none) s = .next { s with dev := e } ∧
    ∀ err ∈ [[], [1, 1, 0, 0, 0, 0, 0, 0, 0, 0]],
      let w : BeatWrite := ⟨0xB000000, 15, .valueCache 5, err, 7, [9]⟩
      (e.sw 0).rseq ≠ (s.dev.sw 0).rseq ∧ e.swRuns 0 = true ∧ w.at_ = .valueCache 5 ∧
      (e.sw 0).liesAt (w.granule % 2 ^ 28) w.at_ = true ∧ w.new.length < 8 ∧
      (decodeBeat (e.marked 0) (e.channelRead 0
          (((e.sw 0).upset (w.granule % 2 ^ 28) w.beat.val w.err).beatAt (w.granule % 2 ^ 28) w.beat.val)) = .bad ↔
        err ≠ []) :=
  ⟨by decide +kernel, exec_write _ _ (by decide +kernel), by decide +kernel⟩

/-- The witness of SlotsMoveByCopyAndCutover: a copy pass, a cutover; then a job without a slot left, and one
whose slot no swath can take. -/
theorem test_w_slots :
    (let s := evac 1
     s.dev.alive = true ∧ s.dev.moving = some (0, 1, 0, 0, 1) ∧ s.dev.online 0 = true ∧ s.dev.online 1 = true ∧
      (s.dev.slot 0).st = 1 ∧ (s.dev.syncSlot 0 1 0 false []).isSome = true ∧
      (s.dev.slot 0).moved.length < 65536) ∧
    (let s := evac 2
     s.dev.alive = true ∧ s.dev.moving = some (0, 1, 0, 0, 1) ∧ (s.dev.slot 0).st = 2 ∧
      s.dev.slotBusy 0 0 = false ∧ (∃ e ∈ s.dev.syncSlot 0 1 0 false [],
        (e.sw 0).ring.length + ((e.movedKeys 0 0 false).flatMap KeyEnt.units).length + 2 ≤ ringCap ∧
        (e.sw 1).ring.length + 2 ≤ ringCap)) := by decide +kernel

theorem test_w_slot_jobs :
    (let j : Job := ⟨1, 0, 0, 0, 0, 1⟩
     let s := run fun d => { d with
       disp := { d.disp with plc := evac0 }, adm := { d.adm with jobs := [(768, j)] } }
     s.dev.alive = true ∧ s.dev.evacJob = some (0, j) ∧ s.dev.job 3 (0 : Fin 16).val = some j ∧
      s.dev.adm.slot = none ∧ s.dev.nextSlot 0 j.act = none) ∧
    (let j : Job := ⟨1, 0, 0, 0, 0, 1⟩
     let s := run fun d => { d with adm := { d.adm with jobs := [(768, j)] } }
     s.dev.alive = true ∧ s.dev.evacJob = some (0, j) ∧ s.dev.job 3 (0 : Fin 16).val = some j ∧
      s.dev.adm.slot = none ∧ s.dev.nextSlot 0 1 = some 0 ∧
      s.dev.fosterFor 0 0 j.arg = none) := by decide +kernel

/-- The witness of SourcesAreAssertedClaimedAndDone: shared and private sources; a claim that takes a
source, one too many, and one that finds none; a completion. -/
theorem test_w_sources :
    (let s := run id
     s.dev.alive = true ∧ sharedListed 0x8B = true ∧ ((srcFn 0x8B).map s.dev.resetting).getD false = false ∧
      sharedListed 0x89 = true ∧ kindC 0x89 = true ∧ s.dev.resetting (.swath (finSw 15)) = false ∧
      s.dev.targetRuns 0 = true ∧ s.dev.bestSource 0 = none ∧ s.dev.inService 0 0x100 = false) ∧
    (let s := run (privPending 16 0)
     s.dev.alive = true ∧ s.dev.targetRuns 16 = true ∧ s.dev.bestSource 16 = some (priv 16 63) ∧
      s.dev.overStorm (priv 16 63) = false) ∧
    (let s := run (privPending 0 1 ∘ at_ Base.irq F.IRQ_CTRL_STORM_MAX 1)
     s.dev.alive = true ∧ s.dev.targetRuns 0 = true ∧ s.dev.bestSource 0 = some (priv 0 63) ∧
      s.dev.overStorm (priv 0 63) = true) ∧
    (let s := run (irqSrc (fun x => { x with service := true, by_ := 17 }) (priv 17 63))
     s.dev.alive = true ∧ s.dev.inService 17 (0x13F : BitVec 10).toNat = true) := by decide +kernel

/-- The witness of NotificationsGoOutAndEnd. -/
theorem test_w_notify :
    (let s := sess ctx0 fun d => allPerms (at_ Base.irq F.IRQ_NTF_CTRL_EN 1
      (at_ Base.irq F.IRQ_NTF_CTRL_MAX_OUT 1 (privPending 17 0 d)))
     s.dev.alive = true ∧ s.dev.flag Base.irq F.IRQ_NTF_CTRL_EN = true ∧ s.dev.targetRuns 17 = true ∧
      s.dev.irq.out.length < s.dev.fld Base.irq F.IRQ_NTF_CTRL_MAX_OUT ∧ s.dev.ntfSession = some 5 ∧
      s.dev.ctx 5 = some ctx0 ∧ s.dev.bestSource 17 = some (priv 17 63) ∧
      s.dev.overStorm (priv 17 63) = false) ∧
    (let q := cmd0 Op.notifyDone (be 2 0x13F)
     let s := ask q (irqSrc (fun x => { x with service := true, by_ := 17 }) (priv 17 63))
     let t := ask q id
     s.dev.alive = true ∧ s.dev.Asks 7 Op.notifyDone q ctx0 ∧
      s.dev.inService 17 (fieldBe q.payload 0 2) = true ∧ t.dev.alive = true ∧
      t.dev.Asks 7 Op.notifyDone q ctx0 ∧ t.dev.inService 17 (fieldBe q.payload 0 2) = false) ∧
    (let s := run fun d => { d with irq := { d.irq with out := [⟨0x13F, 5⟩] } }
     s.dev.alive = true ∧ s.dev.targetRuns 17 = true ∧ ∃ o ∈ s.dev.irq.out, o.src = 0x13F) := by
  unfold Dev.Asks; decide +kernel

/-- The witness of ViolationsFreezeAndResetFunctions: the steward's masters 0 and 147; a swath's master
running, frozen and under reset. -/
theorem test_w_violations :
    (let s := run id
     s.dev.alive = true ∧ masterFn (0 : Fin 148) = none ∧ masterFn (147 : Fin 148) = none ∧
      masterFn (144 : Fin 148) = some (.swath 15) ∧ s.dev.resetting (.swath 15) = false ∧
      s.dev.fnFrozen (.swath 15) = false ∧ s.dev.flag Base.glb F.GLB_FRZ_INFO_VALID = false ∧
      s.dev.swFrozen 15 = false ∧ (s.dev.sw 15).failed = false ∧ (s.dev.sw 15).leftOff = false) ∧
    (let s := run (at_ Base.glb F.GLB_RST_STAT_ACTIVE (2 ^ 15))
     s.dev.alive = true ∧ s.dev.resetting (.swath 15) = true) ∧
    (let s := run (at_ Base.glb F.GLB_FRZ_STAT_SWATHS (2 ^ 15) ∘ at_ Base.glb F.GLB_FRZ_CTRL_AUTO_S 1)
     s.dev.alive = true ∧ s.dev.resetting (.swath 15) = false ∧ s.dev.fnFrozen (.swath 15) = true ∧
      s.dev.fld Base.glb F.GLB_FRZ_CTRL_AUTO_S ≠ 0) := by decide +kernel

/-- The witness of FunctionResetsBeginAndEnd. -/
theorem test_w_function_resets :
    let q (l : List Char) : Cmd := cmd0 Op.functionReset (asciiName l)
    (let s := ask (q "PORT_D".toList) id
     s.dev.alive = true ∧ s.dev.Asks 7 Op.functionReset (q "PORT_D".toList) ctx0 ∧
      fnOfName (slice (q "PORT_D".toList).payload 0 16) = none) ∧
    (let s := ask (q "SWATH_15".toList) id
     let t := ask (q "SWATH_15".toList) (at_ Base.glb F.GLB_RST_STAT_ACTIVE (2 ^ 15))
     s.dev.Asks 7 Op.functionReset (q "SWATH_15".toList) ctx0 ∧
      fnOfName (slice (q "SWATH_15".toList).payload 0 16) = some (.swath 15) ∧
      s.dev.resetting (.swath 15) = false ∧ ownPath ctx0.port (.swath 15) = false ∧
      t.dev.Asks 7 Op.functionReset (q "SWATH_15".toList) ctx0 ∧ t.dev.resetting (.swath 15) = true) ∧
    (fnOfName (slice (q "DRIVE".toList).payload 0 16) = some .drive) ∧
    (let c := cmd0 Op.functionReset []
     let s := ask c fun d => at_ Base.glb F.GLB_RST_STAT_ACTIVE (2 ^ 15) <| at_ Base.pwr F.PWR_HOLD_HEALTH 1
       { d with irq := { d.irq with asker := [(15, 7)] }, pw := { d.pw with charged := true } }
     s.dev.alive = true ∧ fnBit (.swath 15) = some 15 ∧ s.dev.resetting (.swath 15) = true ∧
      look 15 s.dev.irq.asker = some 7 ∧ s.dev.cmd 7 = some c ∧ s.dev.ctx c.sid = some ctx0 ∧
      ((look 15 s.dev.irq.steps).getD []).length < 3 ∧ s.dev.pw.waiting = false ∧
      (s.dev.sw 15).failed = false ∧ (s.dev.sw 15).leftOff = false ∧ s.dev.bankOk = true) ∧
    (let s := run fun d => at_ Base.glb F.GLB_RST_STAT_ACTIVE (2 ^ 15)
       { d with irq := { d.irq with steps := [(15, [1, 2, 3])] } }
     s.dev.alive = true ∧ s.dev.resetting (.swath 15) = true ∧
      3 ≤ ((look (15 : Fin 16).val s.dev.irq.steps).getD []).length) := by
  unfold Dev.Asks; decide +kernel

/-- The same for the function that carries the request's own path, and for one that is no swath. -/
theorem test_w_own_path :
    let q (l : List Char) : Cmd := cmd0 Op.functionReset (asciiName l)
    (let s := ask (q "PORT_A".toList) id
     s.dev.Asks 7 Op.functionReset (q "PORT_A".toList) ctx0 ∧
      fnOfName (slice (q "PORT_A".toList).payload 0 16) = some (.port .a) ∧
      s.dev.resetting (.port .a) = false ∧ ownPath ctx0.port (.port .a) = true) ∧
    (let s := run fun d => { d with irq := { d.irq with due := [(.port .a, 7)] } }
     let t := run fun d => { d with irq := { d.irq with due := [(.drive, 7)] } }
     s.dev.alive = true ∧ s.dev.irq.due = [(.port .a, 7)] ∧ s.dev.cmd 7 = none ∧ s.dev.resetting (.port .a) = false ∧
      t.dev.alive = true ∧ t.dev.irq.due = [(.drive, 7)] ∧ t.dev.cmd 7 = none) ∧
    (let k := (fnBit (.port .b)).getD 0
     let c := cmd0 Op.functionReset []
     let s := ask c fun d => at_ Base.glb F.GLB_RST_STAT_ACTIVE (2 ^ k)
       { d with irq := { d.irq with asker := [(k, 7)] } }
     s.dev.alive = true ∧ fnBit (.port .b) = some k ∧ s.dev.resetting (.port .b) = true ∧
      look k s.dev.irq.asker = some 7 ∧ s.dev.cmd 7 = some c ∧ s.dev.ctx c.sid = some ctx0) := by
  unfold Dev.Asks; decide +kernel

/-- The witness of PowerFailFlushesAndEnds, every cause, and the flush's end. -/
theorem test_w_power_fail :
    (∀ e ∈ [1, 2],
      let s := pwOf (fun p => { p with charged := true }) (at_ Base.pwr F.PWR_STAT_ENVELOPE e)
      s.dev.alive = true ∧ s.dev.pfPossible 3 = true ∧ s.dev.pfPossible (if e = 1 then 0 else 1) = true ∧
      s.dev.pfPossible (if e = 1 then 0 else 2) = true ∧ s.dev.pw.charged = true ∧ s.dev.envelope = e ∧
      s.dev.resetting (.swath 15) = false) ∧
    (criticalOf 49 * 10 ≤ 850 ∧ criticalOf 0 * 10 ≤ 1150 ∧ (run id).dev.alive = true ∧
      (run id).dev.pw.charged = false) ∧
    (pwOf (fun p => { p with pfActive := true }) id).dev.pw.pfActive = true := by decide +kernel

/-- The witness of BudgetsFollowTheirSource: allocations of 99,999 mW and 0, an echo, a link, LIVE_EN. -/
theorem test_w_budgets :
    (let s := run (at_ Base.pwr F.PWR_STAT_ENVELOPE 1)
     s.dev.alive = true ∧ 131071 < 2 ^ 17 ∧ s.dev.envelope ≠ 2) ∧
    (let s := run (at_ Base.pwr F.PWR_STAT_ENVELOPE 2 ∘ at_ Base.pwr F.PWR_STAT_CLASS 8 ∘
      at_ Base.pwr F.PWR_CTRL_LIVE_EN 1)
     s.dev.alive = true ∧ s.dev.envelope = 2 ∧ s.dev.pw.waiting = false ∧
      heathBudget (s.dev.fld Base.pwr F.PWR_STAT_CLASS) (some 0) < 47000 ∧
      47000 ≤ heathBudget (s.dev.fld Base.pwr F.PWR_STAT_CLASS) (some 99999) ∧
      s.dev.budget ≤ heathBudget (s.dev.fld Base.pwr F.PWR_STAT_CLASS) (some 99999) ∧
      s.dev.flag Base.pwr F.PWR_CTRL_LIVE_EN = true ∧
      (s.dev.setFld Base.pwr F.PWR_CTRL_LIVE_EN 0).flag Base.pwr F.PWR_CTRL_LIVE_EN = false) ∧
    (let s := run (at_ Base.pwr F.PWR_STAT_ENVELOPE 2 ∘ at_ Base.pwr F.PWR_STAT_CLASS 8 ∘
      at_ Base.pwr F.PWR_BUDGET_MW 71300)
     s.dev.alive = true ∧ s.dev.envelope = 2 ∧ s.dev.pw.waiting = false ∧ (∀ n, (s.dev.sw n).waits = []) ∧
      47000 ≤ heathBudget (s.dev.fld Base.pwr F.PWR_STAT_CLASS) (some 60000) ∧
      heathBudget (s.dev.fld Base.pwr F.PWR_STAT_CLASS) (some 60000) < s.dev.budget) ∧
    (let s (o : DieOp) := pwOf (fun p => { p with lowering := true }) fun d =>
       (at_ (Base.prt .c) F.PRT_STATUS_LINK 1 d).updSw 15 fun x => { x with ops := [(31, o)] }
     let o := op0 .program
     (s o).dev.alive = true ∧ (s o).dev.pw.lowering = true ∧
      (∀ n, ∀ e ∈ ((s o).dev.sw n).ops, e.2.old = false) ∧
      (s o).dev.flag (Base.prt .c) F.PRT_STATUS_LINK = true ∧
      (∃ n, ∃ e ∈ ((s { o with old := true }).dev.sw n).ops, e.2.old = true)) := by decide +kernel

/-- The witness of LevelsDroopsAndTheBankAct. -/
theorem test_w_levels :
    (let s := run (at_ Base.pwr F.PWR_TOK_CTRL_LOOP_EN 1)
     s.dev.alive = true ∧ s.dev.flag Base.pwr F.PWR_TOK_CTRL_LOOP_EN = true ∧
      (s.dev.limitOf (49 : Fin 50) - 10) * 10 ≤ 849 ∧ (49 : Fin 50).val ∉ s.dev.pw.warned ∧
      s.dev.limitOf (0 : Fin 50) * 10 ≤ 1149 ∧ (0 : Fin 50).val ∉ s.dev.pw.limited ∧
      (s.dev.setTemp 49 849).tooHot = false ∧ (s.dev.setTemp 0 1149).tooHot = false ∧
      (([(0, 1149), (60, 2000)] : List (Nat × Int)).filter fun r => decide (r.1 < 50)) = [(0, 1149)] ∧
      criticalOf (49 : Fin 50).val * 10 ≤ 850) ∧
    (let s := pwOf (fun p => { p with limited := [0], droopMs := [(65, 1)], charged := true, testDue := true })
       (at_ Base.pwr F.PWR_THERM_LIM_CTRL 100)
     s.dev.alive = true ∧ -400 < s.dev.limitOf 0 * 10 ∧ 0 ∈ s.dev.pw.limited ∧ s.dev.pw.droopMs ≠ [] ∧
      s.dev.pw.charged = true ∧ s.dev.pw.testDue = true) := by decide +kernel

/-- An island that droops while the controller junction is at its limit keeps its half clock until both have
ended (R18, R428, R432). -/
theorem test_droop_and_temperature :
    let a := doThermalBelowLimit (-400)
      (doDroopTrip 17 (doThermalLimit 0 2000 (run (at_ Base.pwr F.PWR_THERM_LIM_CTRL 100)).dev))
    a.halfClock 17 = true ∧ a.halfClock 16 = false ∧ (doDroopRecover 17 a).halfClock 17 = false := by
  decide +kernel

/-- The witness of HoldInputsAreAcceptedAndApplied: a change, one too many, one while suspended, an
activation applied, a stuck input and the end of a suspension. -/
theorem test_w_hold_inputs :
    (let s := ioOf id (at_ Base.glb (inputFld F.GLB_IN_CFG_HA_EN .holdB) 1 ∘
      at_ Base.glb (inputFld F.GLB_IN_CFG_HA_CHAT_MAX .holdB) 1)
     let x := s.dev.input (holdToDiscrete .holdB)
     s.dev.alive = true ∧ x.active = !true ∧ x.susp = false ∧ x.stuck = false ∧
      s.dev.flag Base.glb (inputFld F.GLB_IN_CFG_HA_EN .holdB) = true ∧
      ((x.recent.filter fun t => decide (s.dev.now < t + 60 * tickHz)) ++ [s.dev.now]).length ≤
        s.dev.fld Base.glb (inputFld F.GLB_IN_CFG_HA_CHAT_MAX .holdB)) ∧
    (let s := ioOf (fun i => { i with holdB := { inp0 false false false with recent := [0] } })
      (at_ Base.glb (inputFld F.GLB_IN_CFG_HA_EN .holdB) 1 ∘
        at_ Base.glb (inputFld F.GLB_IN_CFG_HA_CHAT_MAX .holdB) 1)
     let x := s.dev.input (holdToDiscrete .holdB)
     s.dev.fld Base.glb (inputFld F.GLB_IN_CFG_HA_CHAT_MAX .holdB) <
       ((x.recent.filter fun t => decide (s.dev.now < t + 60 * tickHz)) ++ [s.dev.now]).length) ∧
    (let s := ioOf
      (fun i => { i with holdA := inp0 true false true, holdB := inp0 true false false, applying := [.holdB] })
      (at_ Base.glb (inputFld F.GLB_IN_CFG_HA_EN .holdA) 1)
     s.dev.alive = true ∧ (s.dev.input (holdToDiscrete .holdA)).susp = true ∧
      (s.dev.input (holdToDiscrete .holdA)).active = true ∧
      s.dev.flag Base.glb (inputFld F.GLB_IN_CFG_HA_EN .holdA) = true ∧ HoldIn.holdB ∈ s.dev.io.applying ∧
      (∀ n : Fin 16, (s.dev.sw n).ready = true → (s.dev.sw n).holding = false) ∧
      s.dev.input (holdToDiscrete .holdB) = inp0 true false false) := by decide +kernel

/-- The witness of ResetPinChainPinsAndLampAct. -/
theorem test_w_reset_pin :
    (let s := ioOf id (at_ Base.glb (inputFld F.GLB_IN_CFG_HA_EN .rstInN) 1 ∘
      at_ Base.glb (inputFld F.GLB_IN_CFG_HA_CHAT_MAX .rstInN) 1 ∘ at_ Base.glb F.GLB_CHAIN_CTRL_EN 1 ∘ at_ Base.pwr F.PWR_STAT_ENVELOPE 1)
     let x := s.dev.io.rst
     s.dev.alive = true ∧ x.active = false ∧ x.susp = false ∧ x.stuck = false ∧
      s.dev.flag Base.glb (inputFld F.GLB_IN_CFG_HA_EN .rstInN) = true ∧
      ((x.recent.filter fun t => decide (s.dev.now < t + 60 * tickHz)) ++ [s.dev.now]).length ≤
        s.dev.fld Base.glb (inputFld F.GLB_IN_CFG_HA_CHAT_MAX .rstInN) ∧ s.dev.boot.running = true ∧
      s.dev.chainOn = true ∧ s.dev.envelope ≠ 2 ∧ (∀ up : Bool,
        lockAfter (if up then s.dev.io.upLock else s.dev.io.dnLock) .comma = true ∧
        (if up then s.dev.io.upLock else s.dev.io.dnLock) = false ∧
        (if up then s.dev.io.upHere else s.dev.io.dnHere) = !true)) ∧
    (let s := run (at_ Base.pwr F.PWR_STAT_ENVELOPE 2)
     s.dev.alive = true ∧ s.dev.envelope = 2) ∧
    (let s := ioOf (fun i => { i with rst := inp0 true false false }) id
     s.dev.io.rst = inp0 true false false) ∧
    (let s := ioOf (fun i => { i with rst := inp0 true false true })
      (at_ Base.glb (inputFld F.GLB_IN_CFG_HA_EN .rstInN) 1)
     s.dev.alive = true ∧ s.dev.io.rst.susp = true ∧ s.dev.io.rst.active = true ∧
      s.dev.flag Base.glb (inputFld F.GLB_IN_CFG_HA_EN .rstInN) = true) ∧
    ((stopped0 id).dev.alive = false ∧ (stopped0 id).dev.envelope ≠ 2) := by decide +kernel

/-- The witness of TheCalendarIsSetSavedAndWatched: a time too early; a set of a LOCKED calendar, of a
FREE one by too much, and of an untrusted one; a leap second; a lost trust. -/
theorem test_w_calendar :
    let early := cmd0 Op.timeSet (be 8 (1704067199 * 1024) ++ be 4 0)
    let good := cmd0 Op.timeSet (be 8 (1704067200 * 1024) ++ be 4 0)
    (let s := ask early id
     s.dev.alive = true ∧ s.dev.Asks 7 Op.timeSet early ctx0 ∧ fieldBe early.payload 0 8 / 1024 < 1704067200) ∧
    (let s := ask good id
     let f := ask good (at_ Base.cal F.CAL_STAT_TRUST 1)
     let l := ask good (at_ Base.cal F.CAL_STAT_TRUST 2)
     s.dev.alive = true ∧ s.dev.Asks 7 Op.timeSet good ctx0 ∧ 1704067200 ≤ fieldBe good.payload 0 8 / 1024 ∧
      s.dev.trust = 0 ∧ f.dev.trust = 1 ∧
      f.dev.fld Base.cal F.CAL_CTRL_SET_MAX_S * 1024 < fieldBe good.payload 0 8 - f.dev.cal.tick ∧
      f.dev.hasPerm ctx0 8 = false ∧ l.dev.trust = 2) ∧
    (let s := calOf (fun c => { c with leap := some (true, 1) }) id
     s.dev.alive = true ∧ s.dev.cal.leap = some (true, 1) ∧ s.dev.calSec + 1 = 1 ∧ s.dev.cal.slew = 0) ∧
    (let s := calOf (fun c => { c with uncertUs := 10 ^ 12 }) (at_ Base.cal F.CAL_STAT_TRUST 1)
     s.dev.alive = true ∧ s.dev.trust ≠ 0 ∧ s.dev.maxUncertMs < s.dev.uncertMs) := by
  unfold Dev.Asks; decide +kernel

/-- The witness of PtpChoosesMastersAndLocks: no master, a worse one, an unacceptable one; the sixteenth
Sync; a locked clock. -/
theorem test_w_ptp :
    let ptp := at_ Base.cal F.CAL_PTP_CTRL_EN 1 ∘ at_ Base.cal F.CAL_PTP_CTRL_PORTS 7
    (let s := run ptp
     s.dev.alive = true ∧ s.dev.ptpOn .a = true ∧ s.dev.cal.master = none ∧ s.dev.acceptable announce0 = true ∧
      s.dev.acceptable { announce0 with timeTrace := false } = false) ∧
    (let m : Master := ⟨.a, 2, 37⟩
     let s := calOf (fun c => { c with master := some m, inRange := 15, ptpSec := 2000000000 })
       (at_ Base.cal F.CAL_PTP_STAT_STATE 2 ∘ ptp)
     let l := calOf (fun c => { c with master := some m }) (at_ Base.cal F.CAL_PTP_STAT_STATE 3 ∘ ptp)
     s.dev.alive = true ∧ s.dev.ptpOn .a = true ∧ s.dev.acceptable announce0 = true ∧ s.dev.cal.master = some m ∧ m.gm ≠ announce0.gm ∧ announce0.better = true ∧
      m.port = .a ∧ min 16 (s.dev.cal.inRange + 1) = 16 ∧ s.dev.ptpState = 2 ∧ s.dev.trust = 0 ∧
      l.dev.alive = true ∧ l.dev.ptpOn .a = true ∧ l.dev.ptpState = 3 ∧ l.dev.cal.master ≠ none) := by decide +kernel

/-- The witness of TheRecorderKeepsItsRecords: an accumulator that holds, none that holds, an immediate
record, a marker, and a request for records. -/
theorem test_w_recorder :
    (let e := event0 0x0201 0
     let s := evrOf fun r => { r with intake := [e], accums := [Accum.fresh e] }
     let t := evrOf fun r => { r with intake := [e] }
     s.dev.alive = true ∧ s.dev.evrRuns = true ∧ s.dev.evr.intake = e :: [] ∧ isMarker e.code = false ∧
      (∃ a ∈ s.dev.evr.accums, Accum.holds e a = true) ∧ (∀ a ∈ t.dev.evr.accums, Accum.holds e a = false) ∧
      t.dev.evr.intake = e :: [] ∧ e.sev < t.dev.fld Base.cal F.EVR_CTRL_IMM_SEV) ∧
    (let e := event0 0x0201 4
     let m := event0 0x0001 1
     let t := evrOf fun r => { r with intake := [e, m] }
     t.dev.alive = true ∧ isMarker m.code = true ∧ t.dev.fld Base.cal F.EVR_CTRL_IMM_SEV ≤ e.sev ∧
      t.dev.evr.lostPend = 0 ∧ t.dev.evr.recs.length < 524288 ∧ t.dev.evr.recs.getLast? = none) ∧
    (let q := cmd0 Op.recordRead (be 4 1 ++ be 2 1 ++ be 1 4 ++ be 1 0)
     let b := cmd0 Op.recordRead (be 4 1 ++ be 2 1 ++ be 1 5 ++ be 1 0)
     let s := ask q id
     let t := ask b id
     s.dev.alive = true ∧ s.dev.Asks 7 Op.recordRead q ctx0 ∧ (∀ r ∈ s.dev.evr.recs, r.bad = false) ∧
      fieldBe q.payload 6 1 ≤ 4 ∧ t.dev.Asks 7 Op.recordRead b ctx0 ∧ 4 < fieldBe b.payload 6 1) := by
  unfold Dev.Asks; decide +kernel

/-- The witness of StartsBringTheDriveUpAndSwathsReady: power-good at a stopped drive; a restart after
critical temperature, cool and not; a trial; the last swath to report ready, and one the bank holds back. -/
theorem test_w_starts :
    (let s := State.reset
     s.dev.boot.running = false ∧ s.dev.pw.pfActive = false ∧ s.dev.pw.stopped = false ∧
      s.dev.powerBack.CanStart start0 ∧ s.stopped) ∧
    ({ State.reset.dev with io := { State.reset.dev.io with holdReset := true } }.powerBack.CanStart start0) ∧
    (let s := stopped0 fun p => { p with stopped := true, temp := [(0, 0)] }
     let e (v : Int) := ([(0, v)].filter fun r => decide (r.1 < 50)).foldl (fun (d : Dev) r => d.setTemp r.1 r.2)
       (s.dev.setReg 0x10048 (s.dev.imageWord 0x10048))
     s.dev.boot.running = false ∧ s.dev.pw.pfActive = false ∧ s.dev.io.holdReset = false ∧
      s.dev.pw.stopped = true ∧ (e 200).allCool = true ∧
      ({ e 200 with pw := { (e 200).pw with stopped := false } }).CanStart start0 ∧
      (e 2000).allCool = false) := by
  unfold Dev.CanStart State.stopped; decide +kernel

theorem test_w_trial_and_ready :
    (let s := bootOf (fun b => { b with fwB := .trial }) id
     s.dev.alive = true ∧ s.dev.boot.inTrial = true ∧ s.dev.pw.waiting = false ∧
      (∃ n, (s.dev.sw n).ready = false ∧ (s.dev.sw n).failed = false ∧ (s.dev.sw n).leftOff = false ∧
        (s.dev.sw n).rebuild = []) ∧
      (s.dev.failTry.driveReset 2).CanStart start0) ∧
    (let s := run id
     s.dev.alive = true ∧ s.dev.boot.inTrial = false ∧ s.dev.pw.charged = false) ∧
    (let s := run fun d => (List.range 15).foldl (fun d n => d.updSw (finSw n) fun x => { x with leftOff := true })
       (at_ Base.pwr F.PWR_HOLD_HEALTH 1 { d with pw := { d.pw with charged := true } })
     s.dev.alive = true ∧ (s.dev.sw 15).ready = false ∧ (s.dev.sw 15).failed = false ∧
      (s.dev.sw 15).leftOff = false ∧ s.dev.resetting (.swath 15) = false ∧ s.dev.pw.waiting = false ∧
      s.dev.pw.charged = true ∧ s.dev.fld Base.pwr F.PWR_HOLD_HEALTH ≠ 0 ∧
      s.dev.fld Base.pwr F.PWR_HOLD_HEALTH ≠ 3 ∧
      (∀ m : Fin 16, m ≠ 15 → (s.dev.sw m).ready = true ∨ (s.dev.sw m).failed = true ∨
        (s.dev.sw m).leftOff = true) ∧ s.dev.flag Base.glb F.GLB_START_STAT_READY = false) := by
  unfold Dev.CanStart; decide +kernel

/-- The witness of ShutdownsTrialsAndMigrations. -/
theorem test_w_shutdowns :
    (let s := run id
     s.dev.alive = true ∧ s.dev.shutting = false ∧ s.dev.flag Base.glb F.GLB_START_STAT_SHUTTING = false ∧
      s.dev.boot.setIn .trial = none ∧ s.dev.boot.whenAt = 0) ∧
    (∀ r : Bool, let s := bootOf (fun b => { b with restart := r }) (at_ Base.glb F.GLB_START_STAT_SHUTTING 1)
     s.dev.alive = true ∧ s.dev.shutting = true ∧ s.dev.flag Base.glb F.GLB_START_STAT_SHUTTING = true ∧
      (∀ e ∈ s.dev.disp.cmds, isData e.2.op = true → e.2.st = .complete) ∧
      (∀ n : Fin 16, (s.dev.sw n).ready = true → (s.dev.sw n).drained = true) ∧ s.dev.boot.restart = r) := by
  decide +kernel

theorem test_w_trials :
    (let s := bootOf (fun b => { b with fwA := .fallback, fwB := .trial, setA := .trial, setB := .fallback })
      (at_ Base.glb F.GLB_START_STAT_READY 1 ∘ at_ Base.glb F.GLB_BOOT_CTRL_CONFIRM_S 1 ∘
        at_ Base.glb F.GLB_BOOT_CTRL_SET_GUARD_M 1)
     s.dev.alive = true ∧ s.dev.boot.fwIn .trial = some true ∧ s.dev.boot.setA = .trial ∧
      s.dev.boot.setB = .fallback ∧ s.dev.flag Base.glb F.GLB_START_STAT_READY = true ∧
      s.dev.fld Base.glb F.GLB_BOOT_CTRL_CONFIRM_S ≠ 0 ∧
      s.dev.fld Base.glb F.GLB_BOOT_CTRL_SET_GUARD_M ≠ 0) ∧
    (let s := bootOf (fun b => { b with setA := .trial }) id
     s.dev.alive = true ∧ s.dev.boot.fwIn .trial = none ∧ s.dev.boot.setA = .trial) ∧
    (let s := bootOf (fun b => { b with migrated := List.range 16 }) (at_ Base.glb F.GLB_START_STAT_MIGRATING 1)
     s.dev.alive = true ∧ s.dev.flag Base.glb F.GLB_START_STAT_MIGRATING = true ∧
      ∀ n : Fin 16, (s.dev.sw n).failed = true ∨ n.val ∈ s.dev.boot.migrated) ∧
    (let s := bootOf (fun b => { b with whenAt := 1, fwB := .pending }) fun d =>
       at_ Base.cal F.CAL_STAT_TRUST 1 { d with cal := { d.cal with tick := 1 } }
     s.dev.alive = true ∧ s.dev.boot.whenAt ≠ 0 ∧ s.dev.boot.whenAt ≤ s.dev.cal.tick ∧
      s.dev.trusted = true ∧ (s.dev.boot.fwIn .pending).isSome = true) := by decide +kernel

/-- The witness of SettingsAndActivation: an image that is none, one of an old series, one that passes;
a pending activation; a stored image, and one asked for that is not stored. -/
theorem test_w_settings :
    let q (b : List Byte) := cmd0 Op.settingsWrite b
    (let s := ask (q []) id
     s.dev.alive = true ∧ s.dev.Asks 7 Op.settingsWrite (q []) ctx0 ∧ parseSettings (q []).payload = none) ∧
    (let s := ask (q (settings0 0)) id
     s.dev.Asks 7 Op.settingsWrite (q (settings0 0)) ctx0 ∧
      (parseSettings (q (settings0 0)).payload).isSome = true ∧
      (parseSettings (q (settings0 0)).payload).map (s.dev.settingsReason · true) = some 3) ∧
    (let s := ask (q (settings0 1)) id
     s.dev.alive = true ∧ s.dev.Asks 7 Op.settingsWrite (q (settings0 1)) ctx0 ∧
      (parseSettings (q (settings0 1)).payload).map (s.dev.settingsReason · true) = some 0) := by
  unfold Dev.Asks; decide +kernel

theorem test_w_activate :
    let q (id : Nat) := cmd0 Op.imageActivate (be 4 id ++ zeros 12)
    let s (b st : SlotSt) (i : Nat) := bootOf (fun x => { x with
      fwA := b, fwB := st, hdrB := some (fwHdrOf header0), idB := 9 }) fun d =>
        (ask (q i) fun e => { e with boot := d.boot }).dev
    ((s .fallback .pending 0).dev.alive = true ∧ (s .fallback .pending 0).dev.Asks 7 Op.imageActivate (q 0) ctx0 ∧
      fieldBe (q 0).payload 0 4 = 0 ∧ (s .fallback .pending 0).dev.boot.fwIn .pending = some true) ∧
    ((s .active .stored 9).dev.Asks 7 Op.imageActivate (q 9) ctx0 ∧ fieldBe (q 9).payload 0 4 ≠ 0 ∧
      ((s .active .stored 9).dev.boot.storedSlot fun _ k => k == fieldBe (q 9).payload 0 4) = some true ∧
      (s .active .stored 9).dev.boot.activateStatus true = St.ok ∧
      ((s .active .stored 8).dev.boot.storedSlot fun _ k => k == fieldBe (q 8).payload 0 4) = none) ∧
    ((s .trial .stored 9).dev.boot.activateStatus true ≠ St.ok) := by
  unfold Dev.Asks; decide +kernel

/-- ACTIVATE from the chain names the stored image by its header's digest. -/
theorem test_w_chain_activate :
    let h := fwHdrOf header0
    let f := chain0 1 0 3 (sha384 h.bytes ++ zeros 14)
    let s := bootOf (fun x => { x with fwB := .stored, hdrB := some h, idB := 9 }) (at_ Base.glb F.GLB_CHAIN_CTRL_EN 1)
    s.dev.alive = true ∧ s.dev.Takes 6 f ∧ s.dev.boot.activateStatus true = St.ok ∧
      (s.dev.boot.storedSlot fun h _ => sha384 h.bytes == slice f.payload 0 48) = some true := by
  have e : ∀ l : List Byte, slice (sha384 l ++ zeros 14) 0 48 = sha384 l := by
    intro l
    have h : (sha384 l).length = 48 := by simp [sha384]
    show ((sha384 l ++ zeros 14).drop 0).take 48 = _
    rw [List.drop_zero, ← h, List.take_left']
    rfl
  refine ⟨by decide +kernel, ⟨rfl, by decide +kernel, fun x h => absurd h (List.not_mem_nil)⟩, by decide +kernel, ?_⟩
  show (Boot.storedSlot _ fun h' _ => sha384 h'.bytes ==
    slice (sha384 (fwHdrOf header0).bytes ++ zeros 14) 0 48) = some true
  rw [e]
  simp [Boot.storedSlot, bootOf, run, at_, Boot.fw, Boot.hdr, Dev.setFld, Dev.setReg, Dev.reset, Boot.reset]

/-- The witness of ImagesAreTransferredAndStored. -/
theorem test_w_images :
    let ok : HdrVerdict := ⟨true, true⟩
    (let q := cmd0 Op.imageBegin header0
     let s := ask q id
     s.dev.alive = true ∧ s.dev.Asks 7 Op.imageBegin q ctx0 ∧ (1 : BitVec 32) ≠ 0 ∧
      (1 : BitVec 32).toNat ≠ s.dev.boot.idA ∧ (1 : BitVec 32).toNat ≠ s.dev.boot.idB ∧
      s.dev.hdrReason q.payload ok = 0 ∧ s.dev.hdrReason q.payload ⟨false, true⟩ = 1) ∧
    (let q (off n : Nat) := cmd0 Op.imageData (be 4 9 ++ be 4 off ++ zeros n)
     let t := xfer0 false false
     let s (off n : Nat) := ask (q off n) fun d => { d with boot := { d.boot with xfer := some t } }
     (s 99 1).dev.alive = true ∧ (s 99 1).dev.Asks 7 Op.imageData (q 99 1) ctx0 ∧
      (s 99 1).dev.boot.xfer = some t ∧ t.id = word32 (q 99 1).payload 0 ∧ t.chain = false ∧ t.storing = false ∧
      fieldBe (q 99 1).payload 4 4 = t.got ∧ t.got + ((q 99 1).payload.drop 8).length = t.hdr.len ∧
      t.got + ((q 99 0).payload.drop 8).length < t.hdr.len ∧ fieldBe (q 98 1).payload 4 4 ≠ t.got ∧
      { t with id := 8 }.id ≠ word32 (q 99 1).payload 0) ∧
    (∀ st : Bool, let s := bootOf (fun b => { b with xfer := some (xfer0 false st) }) id
     s.dev.alive = true ∧ s.dev.boot.xfer = some (xfer0 false st) ∧ (xfer0 false st).storing = st) := by
  unfold Dev.Asks; decide +kernel

/-- The witness of ImagesTravelTheChain. -/
theorem test_w_chain_images :
    let on := at_ Base.glb F.GLB_CHAIN_CTRL_EN 1 ∘ at_ Base.glb F.GLB_UPD_CTRL_ACCEPT_CHAIN 1 ∘
      at_ Base.glb F.GLB_UPD_CTRL_RELAY 1
    (let s := run on
     let f := chain0 1 0 3 header0
     s.dev.alive = true ∧ s.dev.Takes 1 f ∧ s.dev.flag Base.glb F.GLB_UPD_CTRL_ACCEPT_CHAIN = true ∧
      s.dev.hdrReason f.payload ⟨true, true⟩ = 0 ∧ s.dev.hdrReason f.payload ⟨true, false⟩ = 2) ∧
    (let t := xfer0 true false
     let s := bootOf (fun b => { b with xfer := some t }) fun d => on { d with io := { d.io with dnHere := true } }
     s.dev.alive = true ∧ s.dev.boot.xfer = some t ∧ t.chain = true ∧ t.storing = false ∧
      s.dev.chainOn = true ∧ (chain0 2 100 3 [1]).xfer = t.xfer ∧
      t.got < (chain0 2 100 3 [1]).offset ∧ t.gap = false ∧ (chain0 2 99 3 []).offset = t.got ∧
      (chain0 2 98 3 [1]).offset < t.got ∧ s.dev.Takes 3 (chain0 2 0 3 []) ∧ s.dev.relays = true ∧
      s.dev.io.dnHere = true ∧
      ({ t with got := 98 }.got + (chain0 2 98 3 [1]).payload.length < t.hdr.len ∧
        (chain0 2 98 3 [1]).payload ≠ [])) ∧
    (let s := run on
     s.dev.Takes 4 (chain0 1 0 3 []) ∧ s.dev.boot.entered 3 = false) ∧
    (let s := bootOf (fun b => { b with xfer := some { xfer0 false false with hop := 0 } }) on
     s.dev.Takes 4 (chain0 1 0 3 []) ∧ s.dev.boot.entered 3 = true) := by
  unfold Dev.Takes; decide +kernel

/-- The witness of TheInventoryIsKept and InventoryCommandsComplete: the farthest beacon, an entry past the last
position, a chain that is off and one in the Heath envelope. -/
theorem test_w_inventory :
    (let s := ioOf (fun i => { i with upHere := true }) (at_ Base.glb F.GLB_CHAIN_CTRL_EN 1)
     s.dev.alive = true ∧ (chain0 255 0 0 []).crcOk = true ∧ (chain0 63 0 0 [1]).crcOk = true ∧
      s.dev.chainOn = true ∧ s.dev.io.upHere = true) ∧
    (run (at_ Base.glb F.GLB_CHAIN_CTRL_EN 0)).dev.chainOn = false ∧
    (run (at_ Base.glb F.GLB_CHAIN_CTRL_EN 1 ∘ at_ Base.pwr F.PWR_STAT_ENVELOPE 2)).dev.chainOn = false ∧
    (let s := bootOf (fun b => { b with inv := [(63, ⟨[], false⟩)] }) id
     s.dev.alive = true ∧ look 63 s.dev.boot.inv = some ⟨[], false⟩) := by decide +kernel

/-- The witness of IdentityStatusAndProgressAreAnswered. -/
theorem test_w_identity :
    (∀ op ∈ [Op.attest, Op.takeOwnership, Op.status],
      let s := ask (cmd0 op (zeros 97)) id
      s.dev.alive = true ∧ s.dev.Asks 7 op (cmd0 op (zeros 97)) ctx0 ∧ s.dev.boot.owner = none) ∧
    (let q (job : Nat) := cmd0 Op.progress (be 1 job ++ be 1 15 ++ zeros 2)
     let s (job : Nat) := ask (q job) (jobOf 4 15 1)
     (s 6).dev.alive = true ∧ (s 6).dev.Asks 7 Op.progress (q 6) ctx0 ∧ 5 < fieldBe (q 6).payload 0 1 ∧
      (s 5).dev.Asks 7 Op.progress (q 5) ctx0 ∧ fieldBe (q 5).payload 2 2 = 0 ∧
      (s 5).dev.jobFor (fieldBe (q 5).payload 0 1) (fieldBe (q 5).payload 1 1) = none ∧
      (s 4).dev.Asks 7 Op.progress (q 4) ctx0 ∧
      (s 4).dev.jobFor (fieldBe (q 4).payload 0 1) (fieldBe (q 4).payload 1 1) = some ⟨1, 0, 0, 0, 1, 1⟩) := by
  unfold Dev.Asks; decide +kernel

/-- The witness of TestsAndEvacuationsBegin: tests that are BUSY, offline and begin; the ends of each;
an evacuation that begins and one that waits for another. -/
theorem test_w_swath_tests :
    (let q (test : Nat) := cmd0 Op.swathTest (be 1 0 ++ be 1 test ++ zeros 2 ++ be 4 65535)
     let s (test : Nat) (f : Dev → Dev) := ask (q test) f
     let free (d : Dev) : Dev := { d with disp := { d.disp with plc := evac0 } }
     ((s 1 id).dev.alive = true ∧ (s 1 id).dev.Asks 7 Op.swathTest (q 1) ctx0 ∧
       (0 : Fin 16).val = fieldBe (q 1).payload 0 1 ∧ 1 ≤ fieldBe (q 1).payload 1 1 ∧
       fieldBe (q 3).payload 1 1 ≤ 3 ∧ fieldBe (q 1).payload 4 4 ≤ 65535 ∧ fieldBe (q 1).payload 2 2 = 0 ∧
       (s 1 id).dev.ownsSlots 0 = true) ∧
     ((s 2 free).dev.ownsSlots 0 = false ∧ (s 2 free).dev.sanitizing = false ∧ (s 2 free).dev.jobOn 4 0 = false ∧
       (s 2 free).dev.resetting (.swath 0) = false ∧ ((s 2 free).dev.sw 0).failed = false ∧
       (s 2 free).dev.swFrozen 0 = false) ∧
     ((s 3 id).dev.online 0 = false ∧ (s 3 (keys0 [])).dev.online 0 = true)) ∧
    (∀ act ∈ [1, 2, 3], let s := run (jobOf 4 15 act ∘ at_ (Base.sw 15) F.SW_TST_STAT_ACTIVE 1)
     s.dev.alive = true ∧ s.dev.job 4 (15 : Fin 16).val = some ⟨1, 0, 0, 0, 1, act⟩ ∧
      s.dev.flag (Base.sw 15) F.SW_TST_STAT_ACTIVE = true ∧
      s.dev.flag (Base.sw 15) F.SW_TST_FAULT_INFO_VALID = false) ∧
    (let q := cmd0 Op.evacuate (be 1 15 ++ be 1 2 ++ zeros 2)
     let s := ask q id
     let t := ask q (jobOf 3 15 1)
     s.dev.alive = true ∧ s.dev.Asks 7 Op.evacuate q ctx0 ∧ fieldBe q.payload 0 1 < 16 ∧
      1 ≤ fieldBe q.payload 1 1 ∧ fieldBe q.payload 1 1 ≤ 2 ∧ s.dev.sanitizing = false ∧
      s.dev.formatting = false ∧ s.dev.jobRuns 3 = false ∧ t.dev.jobRuns 3 = true) := by
  unfold Dev.Asks; decide +kernel

/-- The witness of ErasesBeginAndEnd: a SANITIZE that is refused, waits and begins; a FORMAT; the ends. -/
theorem test_w_sanitize :
    let q := cmd0 Op.sanitize (be 4 0x53414E49 ++ be 4 0)
    let b := cmd0 Op.sanitize (zeros 8)
    let r := { q with st := .running }
    let chk (s : State) (c : Cmd) := s.dev.eraseCheck ctx0 (fieldBe c.payload 0 4 == 0x53414E49)
      (fieldBe c.payload 4 4)
      (s.dev.sanitizing || s.dev.formatting || s.dev.jobRuns 3 || s.dev.jobRuns 4) (fun _ => true)
    let more (d : Dev) : Dev := { d with disp := { d.disp with
      cmds := d.disp.cmds ++ [(8, { cmd0 Op.put [] with hasTag := true })] } }
    ((ask q id).dev.alive = true ∧ (ask q id).dev.Asks 7 Op.sanitize q ctx0 ∧ chk (ask q id) q = none ∧
      (ask q id).dev.eraseWaits (fun _ => true) = false) ∧
    ((ask b id).dev.Asks 7 Op.sanitize b ctx0 ∧ chk (ask b id) b = some St.malformed) ∧
    ((ask q more).dev.Asks 7 Op.sanitize q ctx0 ∧ chk (ask q more) q = none ∧
      (ask q more).dev.eraseWaits (fun _ => true) = true) ∧
    ((ask r id).dev.cmd 7 = some r ∧ r.op = Op.sanitize ∧ r.st = .running ∧
      (ask r id).dev.eraseWaits (fun _ => true) = false ∧ (ask r more).dev.cmd 7 = some r ∧
      (ask r more).dev.eraseWaits (fun _ => true) = true) := by
  unfold Dev.Asks; decide +kernel

/-- The witness of the erases of SANITIZE: the first superblock, the last spare row, and a listed block that fails. -/
theorem test_w_wipe :
    (∀ e ∈ [(0, 0), (2111, 2111)],
      let t : Tbl Nat := [(31, e.1)]
      let s := sw15 fun w => { w with wipe := some t, ops := [(31, op0 .erase)] }
      let r : State := { s with dev := jobOf 1 0 0 s.dev }
      r.dev.alive = true ∧ r.dev.swRuns 15 = true ∧ r.dev.job 1 0 = some ⟨1, 0, 0, 0, 1, 0⟩ ∧
      (r.dev.sw 15).wipe = some t ∧ (r.dev.sw 15).nextRow 31 = some e.2 ∧ (look (31 : Fin 32).val t).isSome = true ∧
      look (31 : Fin 32).val (r.dev.sw 15).ops = some (op0 .erase) ∧ (op0 .erase).held = false) := by
  decide +kernel

/-- After a power loss a die that has erased 100 rows goes on from row 64, the last mark of its swath (R573, R574),
and the job shows 20 + 980 × 64 ÷ 2,112. -/
theorem test_wipe_mark :
    (let s : Swath := { Swath.reset with wipe := some (put 5 100 (wipedTo 127)) }
     s.unpowered.wipe = some (wipedTo 64)) ∧
    (let d : Dev := { Dev.reset with
       sws := Vector.replicate 16 { Swath.reset with wipe := some (wipedTo 64) } }
     ((jobOf 1 0 0 d).showWipe.job 1 0).map (·.permille) = some 49) := by decide +kernel

theorem test_w_format :
    (∀ all ∈ [0, 1],
      let q := cmd0 Op.format (be 1 all ++ be 1 0 ++ zeros 2 ++ be 4 0x464F524D)
      let s := ask q pairSpace
      let a := fieldBe q.payload 0 1 == 1
      s.dev.alive = true ∧ s.dev.Asks 7 Op.format q ctx0 ∧
      s.dev.eraseCheck ctx0 (fieldBe q.payload 4 4 == 0x464F524D && decide (fieldBe q.payload 0 1 ≤ 1) &&
        fieldBe q.payload 2 2 == 0 && (a || (look q.space s.dev.boot.set_.spaces).isSome))
        (fieldBe q.payload 1 1) (s.dev.sanitizing || s.dev.jobRuns 3 || s.dev.formatShares a q.space)
        (fun x => a || x == q.space) = none ∧
      s.dev.eraseWaits (fun x => a || x == q.space) = false) ∧
    (let s := run (jobOf 1 0 0)
     s.dev.alive = true ∧ s.dev.job 1 0 = some ⟨1, 0, 0, 0, 1, 0⟩) ∧
    (let s := run (jobOf 2 255 0)
     s.dev.alive = true ∧ s.dev.job 2 255 = some ⟨1, 0, 0, 0, 1, 0⟩ ∧ s.dev.job 7 0 = none) := by
  unfold Dev.Asks; decide +kernel

/-- The witness of RegistersAreReadAndWritten, the ends of a block's span among its edges; 0x10000 is
PWR_CTRL, 0x10058 the last register of its block, 0x2000 lies in no block. -/
theorem test_w_registers :
    (let q (a : Nat) := cmd0 Op.regRead (be 4 a ++ be 2 1 ++ zeros 2)
     (ask (q 0x2000) id).dev.alive = true ∧ (ask (q 0x2000) id).dev.Asks 7 Op.regRead (q 0x2000) ctx0 ∧
      fieldBe (q 0x2000).payload 0 4 = 0x2000 ∧ fieldBe (q 0x2000).payload 4 2 = 1 ∧ (q 0x2000).regAt = 0 ∧
      (q 0x2000).regVals = [] ∧ (spanOf 0x2000).isNone = true ∧ (spanOf 0x10058).isSome = true ∧
      (ask (q 0x10058) id).dev.regWaits 0x10058 = false ∧ isPoolFree 0x10058 = false ∧
      isStepWindow 0x10058 = false ∧ pairsOf 0x10058 = []) ∧
    (let q (a : Nat) := cmd0 Op.regWrite (be 2 1 ++ zeros 2 ++ be 4 a ++ be 4 1 ++ be 4 1)
     let s (a : Nat) := ask (q a) id
     (s 1).dev.Asks 7 Op.regWrite (q 1) ctx0 ∧ fieldBe (q 1).payload 0 2 = 1 ∧ (q 1).regAt = 0 ∧
      fieldBe (q 1).payload 4 4 % 4 ≠ 0 ∧ fieldBe (q 0x2000).payload 4 4 % 4 = 0 ∧
      (s 0x2000).dev.regWaits 0x2000 = false ∧ ((s 0x2000).dev.writeEntry .session 0x2000 1 1).isNone = true ∧
      (s 0x10000).dev.Asks 7 Op.regWrite (q 0x10000) ctx0 ∧ plainReg 0x10000 = true) := by
  unfold Dev.Asks; decide +kernel

theorem test_w_register_write :
    let q := cmd0 Op.regWrite (be 2 1 ++ zeros 2 ++ be 4 0x10000 ++ be 4 1 ++ be 4 1)
    let s := ask q id
    (∃ r, s.dev.TakesWrite .session 0x10000 1 1 r) ∧ (∃ r, s.dev.TakesWrite .steward 0x10000 1 1 r) :=
  ⟨takes_intro (by decide +kernel) (by decide +kernel) (by decide +kernel),
    takes_intro (by decide +kernel) (by decide +kernel) (by decide +kernel)⟩

/-- The witness of ReadsLatchClaimAndSelect. -/
theorem test_w_latches :
    let s := run id
    (s.dev.alive = true ∧ s.dev.regWaits 0x30008 = false ∧ pairsOf 0x30008 = [0x3000C]) ∧
    (s.dev.regWaits 0x42034 = false ∧ isPoolFree 0x42034 = true ∧ isRc 0x10000 = false) ∧
    (s.dev.regWaits 0x20014 = false ∧ s.dev.regWaits 0x20024 = false ∧ ReqPath.notify ≠ .session) ∧
    (s.dev.regWaits 0x10040 = false ∧ (windowAt 0x10040).isSome = true) := by decide +kernel

theorem test_w_select : ∃ r, (run id).dev.TakesWrite .session 0x10040 0xFFFFFFFF 65 r :=
  takes_intro (by decide +kernel) (by decide +kernel) (by decide +kernel)

/-- The witnesses of the short rules: a reserved address of the power block, a paused port without a
watchdog, a pending gate list. -/
theorem test_w_reserved :
    let q := cmd0 Op.regWrite (be 2 1 ++ zeros 2 ++ be 4 0x1002C ++ be 4 1 ++ be 4 1)
    let s := ask q id
    s.dev.alive = true ∧ (spanOf 0x1002C).isSome = true ∧ (regDesc 0x1002C).isNone = true ∧
      s.dev.Asks 7 Op.regWrite q ctx0 ∧ fieldBe q.payload 0 2 = 1 ∧ q.regAt = 0 ∧
      0x1002C = fieldBe q.payload 4 4 ∧ 0x1002C % 4 = 0 ∧ s.dev.regWaits 0x1002C = false ∧
      s.dev.regFrozen 0x1002C = false := by
  unfold Dev.Asks; decide +kernel

theorem test_w_watchdog_off :
    let s := run (at_ (Base.prt .a) F.PRT_STATUS_PAUSED 1 ∘ at_ (Base.prt .a) F.PRT_PWD_TIME 0)
    s.dev.alive = true ∧ s.dev.fld (Base.prt .a) F.PRT_PWD_TIME = 0 := by decide +kernel

theorem test_w_gate_pending :
    let s := run (at_ (Base.prt .a) F.PRT_GCL_CTRL_PENDING 1)
    s.dev.alive = true ∧ s.dev.flag (Base.prt .a) F.PRT_GCL_CTRL_PENDING = true ∧
      ∃ r, s.dev.TakesWrite .steward 0x40084 0xFFFFFFFF 1000 r :=
  ⟨by decide +kernel, by decide +kernel,
    takes_intro (by decide +kernel) (by decide +kernel) (by decide +kernel)⟩

/-- The witness of AStoppedDriveStaysStoppedAtEveryStep: the drive after a reset, and one under a
power-fail with commands waiting. -/
theorem test_w_stopped :
    State.reset.stopped ∧
    (let s : State := { pwOf (fun p => { p with pfActive := true }) id with pending := [.fcFlush, .shutdown] }
     s.stopped) := by
  unfold State.stopped; decide +kernel

/-! ### Commands out of range are refused -/

def al0 : Alloc := ⟨0, 0, 0⟩
def bigAl : Alloc := ⟨2 ^ 35, 0, 0⟩

/-- Every check of `Instr.wf` refuses a command out of its range, and takes the last one in it. -/
theorem test_wf_sessions :
    (Instr.frameReceive .a { frame0 .own .other with size := 16384 }).wf = false ∧
    (Instr.frameReceive .a { frame0 .own .other with size := 16383 }).wf = true ∧
    (∀ c ∈ [Instr.reorderTimeout 16384 0, .reassemblyTimeout 0 (2 ^ 32), .partAckTimer 16384 1,
      .ackDelayTimer 16384, .ack 16384, .idleTimeout 16384, .sessionOpenPhase1 16384 ⟨[], [], [], []⟩,
      .sessionOpenPhase3 16384 ⟨true, true, none, 0, 0⟩, .sessionOpenTimeout 16384, .lingerTimeout 16384,
      .streamTimeout 16384 0, (.rtoTimer 0 0 ⟨65536, false⟩), (.underrunResend 16384 0 ⟨0, false⟩)], c.wf = false) ∧
    (Instr.rtoTimer 16383 (2 ^ 32 - 1) ⟨65535, true⟩).wf = true := by decide +kernel

theorem test_wf_writes :
    (∀ c ∈ [Instr.put 0 0 bigAl, .putStream 0 0 bigAl, .casPut 0 0 bigAl, .delete 0 0 bigAl,
      .discardSecure 0 0 bigAl, .hold 0 0 bigAl, .writeRange 0 0 bigAl true, .append 0 0 bigAl true,
      .writeComplete 0 0 bigAl none, .rangePieceSwitch 0 0 bigAl true, .pairOneCopySwitch 0 0 bigAl,
      .pairCatchup 0 256 [1] al0, .pairCatchup 0 0 [] al0, .extentJoin 0 0 (List.replicate 513 0) al0 none,
      .slotCutover [al0, bigAl],
      .writeComplete 0 0 al0 (some ⟨0, 0, .working, zeros 10, 7, [1, 2]⟩), .bufferUnitTake 0 0 1024], c.wf = false) ∧
    (Instr.pairCatchup 0 255 (List.replicate 512 0) al0).wf = true ∧ (Instr.bufferUnitTake 0 0 1023).wf = true ∧
    (Instr.writeComplete 0 0 al0 (some ⟨0, 0, .working, zeros 10, 7, [1]⟩)).wf = true := by
  decide +kernel

theorem test_wf_media :
    (∀ c ∈ [Instr.overflowRefill 0 (2 ^ 21), .codewordRead 0 (2 ^ 30) .hard false ⟨0, []⟩ 0,
      .programComplete 0 .drain 2048 ⟨0, [], []⟩ [], .programComplete 0 .drain 0 ⟨0, [], []⟩ [⟨2 ^ 30, 0, 0⟩],
      .programFail 0 .drain 0 0 0 2048 [], .eraseComplete 0 2112 ⟨0, []⟩, .eraseFail 0 2112 0 0, .packPageClose 0 32768,
      .pageRetire 0 (2 ^ 23), .patrolTick 0 (2 ^ 28) 0 .working [] false,
      .patrolTick 0 0 0 (.spare (.buffer 1024 0)) [] false, .dmaUeHalt 0 0 0 0 (.retention 16384 0 0),
      .irqSourceAssert 0 0x140, .notifyTimeout 0x140, .inventoryStale 64, .adminJobEnd 0 0, .adminJobEnd 6 0,
      .adminJobEnd 1 256], c.wf = false) ∧
    (Instr.eraseComplete 0 2111 ⟨31, []⟩).wf = true ∧ (Instr.adminJobEnd 5 255).wf = true := by decide +kernel

/-- The bits of a beat that flip are none or its ten bytes; a hit lies in the channel; a held fragment's session is one. -/
theorem test_wf_dram :
    (let h : DramHit := ⟨0, 0, .working, zeros 9⟩
     ∀ c ∈ [Instr.patrolTick 0 0 0 .working (zeros 9) false, .chainEligible 0 0 ⟨true, [(.dma, h)]⟩,
       .chainEligible 0 0 ⟨true, [(.dma, { h with granule := 2 ^ 28, err := [] })]⟩, .coreTrap (.fetch 0 h),
       .coreTrap (.load 0 h), .sramUe (.rxHeld 16384 0 0), .sramUe (.rxHeld 0 (2 ^ 32) 0),
       .writeComplete 0 0 al0 (some ⟨0, 0, .working, zeros 9, 0, [1]⟩)], c.wf = false) ∧
    (Instr.patrolTick 0 0 0 .working (zeros 10) false).wf = true ∧
    (Instr.coreTrap (.load 15 ⟨2 ^ 28 - 1, 15, .working, []⟩)).wf = true ∧
    (Instr.sramUe (.rxHeld 16383 (2 ^ 32 - 1) 0)).wf = true := by decide +kernel

theorem test_wf_chain_and_registers :
    (∀ c ∈ [Instr.imgHdr (chain0 256 0 0 []) ⟨true, true⟩, .imgData (chain0 0 0 0 (zeros 1025)) true,
      .imgEnd (chain0 256 0 0 []), .refuse (chain0 256 0 0 []), .resend (chain0 256 0 0 []),
      .activate (chain0 256 0 0 []), .inventory (chain0 256 0 0 []) true, .regWritePlain .steward 1 0 0,
      .loLatchRead .session 2, .rcClearRead .notify 3, .windowSelectWrite .steward 0xFFFFFF 0], c.wf = false) ∧
    (Instr.imgData (chain0 255 0 0 (zeros 1024)) true).wf = true ∧
    (Instr.regWritePlain .steward 0xFFFFFC 0 0).wf = true := by decide +kernel

/-! ### Single steps -/

/-- The drive after one command. -/
def after (c : Instr) (s : State) : Option Dev :=
  match exec c s with
  | .next t => some t.dev
  | _ => none

/-- R45 to R47: a pause of 101 ms at TIME 100 is broken; one of 100 ms stands. -/
theorem test_pause_watchdog :
    let s := run (at_ (Base.prt .b) F.PRT_STATUS_PAUSED 1 ∘ at_ (Base.prt .b) F.PRT_PWD_TIME 100)
    (after (.pauseWatchdogFire .b none 101) s).map
        (fun d => (d.fld (Base.prt .b) F.PRT_STATUS_PAUSED, d.fld (Base.prt .b) F.PRT_STATUS_PWD_HOLDOFF)) =
      some (0, 1) ∧
    (after (.pauseWatchdogFire .b none 100) s).map
        (fun d => (d.fld (Base.prt .b) F.PRT_STATUS_PAUSED, d.fld (Base.prt .b) F.PRT_STATUS_PWD_HOLDOFF)) =
      some (1, 0) := by decide +kernel

/-- R61, Table 2-12: the level of class 7 falls from 5 to 4, and the classes beside it stay. -/
theorem test_level_decay :
    let s := run fun d => (at_ (Base.prt .a) F.PRT_CT_LEVEL_LEVEL (5 * 8 ^ 7 + 3 * 8 ^ 6)
      (at_ (Base.prt .a) F.PRT_CT_CT_BASE 1 (at_ (Base.prt .a) F.PRT_CT_DECAY 1 d))).updPort .a
        fun x => { x with sentGood := [(7, 1)] }
    (after (.ctLevelDecay .a 7) s).map (fun d => (d.ctLevel .a 7, d.ctLevel .a 6)) = some (4, 3) := by
  decide +kernel

/-- R437, R438: 3,599 mJ is degraded health, 3,600 mJ good, 789 mJ failed; 600 mJ flush no unit. -/
theorem test_bank :
    let s := pwOf (fun p => { p with charged := true }) id
    let h (mj : Nat) := (after (.bankTest mj) s).map fun d =>
      (d.fld Base.pwr F.PWR_HOLD_HEALTH, d.fld Base.pwr F.PWR_HOLD_UNITS)
    (h 3599).map (·.1) = some 2 ∧ (h 3600).map (·.1) = some 1 ∧ (h 789).map (·.1) = some 3 ∧
      (h 600).map (·.2) = some 0 := by decide +kernel

/-- A step takes the front command and leaves the rest of the queue. -/
theorem test_step_front :
    let s : State := { run id with pending := [.fcFlush, .shutdown] }
    (match step s with
     | .next t => decide (t.pending = [.shutdown])
     | _ => false) = true := by decide +kernel

end Sys2Proof.Tests
end

section
/-!
PROOFS. FRAGMENT_COMMIT (R11): where the oldest received frame of a port goes. First what the operations of a commit
leave alone, then the branches of the commit, then the statement.
-/
namespace Sys2Proof.Machine

/-! ### Cells that return leave the received frames where they are -/

theorem Dev.flowCheckPort_rxq (d : Dev) (p q : PortId) :
    ((d.flowCheckPort p).port q).rxq = (d.port q).rxq := by
  unfold Dev.flowCheckPort
  split
  · rfl
  · by_cases h : p = q
    · subst h; simp [Dev.flowPort]
    · rw [d.updPort_port_ne p q _ h]

@[simp] theorem Dev.giveCells_rxq (d : Dev) (m n : Nat) (q : PortId) :
    ((d.giveCells m n).port q).rxq = (d.port q).rxq := by
  simp only [Dev.giveCells, Dev.flowCheck, Dev.flowCheckPort_rxq]
  cases q <;> rfl

@[simp] theorem Dev.giveCells_pool (d : Dev) (m n : Nat) : (d.giveCells m n).pool = d.pool - m := by
  simp [Dev.giveCells, Dev.flowCheck]

@[simp] theorem Dev.giveCells_pool7 (d : Dev) (m n : Nat) : (d.giveCells m n).pool7 = d.pool7 - n := by
  simp [Dev.giveCells, Dev.flowCheck]

/-! ### A key that is dropped touches the policy matcher alone -/

theorem Dev.dropKey_frame (d : Dev) (no : Option Nat) :
    d.dropKey no = { d with pol := (d.dropKey no).pol } := by
  cases no <;> rfl

@[simp] theorem Dev.dropKey_port (d : Dev) (no : Option Nat) (q : PortId) : (d.dropKey no).port q = d.port q := by
  rw [d.dropKey_frame]; cases q <;> rfl

@[simp] theorem Dev.dropKey_pool (d : Dev) (no : Option Nat) : (d.dropKey no).pool = d.pool := by
  rw [d.dropKey_frame]

@[simp] theorem Dev.dropKey_pool7 (d : Dev) (no : Option Nat) : (d.dropKey no).pool7 = d.pool7 := by
  rw [d.dropKey_frame]

@[simp] theorem Dev.dropKey_regs (d : Dev) (no : Option Nat) : (d.dropKey no).regs = d.regs := by
  rw [d.dropKey_frame]

@[simp] theorem Dev.dropKey_ses (d : Dev) (no : Option Nat) : (d.dropKey no).ses = d.ses := by
  rw [d.dropKey_frame]

@[simp] theorem Dev.dropKey_disp (d : Dev) (no : Option Nat) : (d.dropKey no).disp = d.disp := by
  rw [d.dropKey_frame]

/-! ### The frame leaves the queue -/

/-- The drive once the oldest received frame of a port has left its queue. -/
def Dev.unqueued (d : Dev) (p : PortId) (rest : List RxEnt) : Dev :=
  d.updPort p fun x => { x with rxq := rest }

section
variable (d : Dev) (p : PortId) (rest : List RxEnt)

@[simp] theorem Dev.unqueued_rxq : ((d.unqueued p rest).port p).rxq = rest := by simp [Dev.unqueued]
@[simp] theorem Dev.unqueued_pool : (d.unqueued p rest).pool = d.pool := by simp [Dev.unqueued]
@[simp] theorem Dev.unqueued_pool7 : (d.unqueued p rest).pool7 = d.pool7 := by simp [Dev.unqueued]
@[simp] theorem Dev.unqueued_regs : (d.unqueued p rest).regs = d.regs := by simp [Dev.unqueued]
@[simp] theorem Dev.unqueued_fld (b : Nat) (f : Fld) : (d.unqueued p rest).fld b f = d.fld b f := by
  simp [Dev.unqueued]
@[simp] theorem Dev.unqueued_ses : (d.unqueued p rest).ses = d.ses := by simp [Dev.unqueued]
@[simp] theorem Dev.unqueued_disp : (d.unqueued p rest).disp = d.disp := by simp [Dev.unqueued]
@[simp] theorem Dev.unqueued_sws : (d.unqueued p rest).sws = d.sws := by simp [Dev.unqueued]
@[simp] theorem Dev.unqueued_ctx (i : Nat) : (d.unqueued p rest).ctx i = d.ctx i := by simp [Dev.unqueued]
@[simp] theorem Dev.unqueued_resetting (f : Fn) : (d.unqueued p rest).resetting f = d.resetting f := by
  simp [Dev.resetting]

end

/-- The drive once a frame is dropped: its cells return, its key goes and one counter counts it. -/
def Dev.dropped (d : Dev) (p : PortId) (e : RxEnt) (rest : List RxEnt) (f : Fld) : Dev :=
  (((d.unqueued p rest).giveCells e.cells e.cells7).dropKey e.keyNo).bump Base.ses f

section
variable (d : Dev) (p : PortId) (e : RxEnt) (rest : List RxEnt) (f : Fld)

@[simp] theorem Dev.dropped_rxq : ((d.dropped p e rest f).port p).rxq = rest := by simp [Dev.dropped]
@[simp] theorem Dev.dropped_pool : (d.dropped p e rest f).pool = d.pool - e.cells := by simp [Dev.dropped]
@[simp] theorem Dev.dropped_pool7 : (d.dropped p e rest f).pool7 = d.pool7 - e.cells7 := by simp [Dev.dropped]
@[simp] theorem Dev.dropped_ses : (d.dropped p e rest f).ses = d.ses := by simp [Dev.dropped]
@[simp] theorem Dev.dropped_disp : (d.dropped p e rest f).disp = d.disp := by simp [Dev.dropped]

theorem Dev.dropped_fld (h0 : f.lo = 0) (hw : f.width = 32) :
    (d.dropped p e rest f).fld Base.ses f = (d.fld Base.ses f + 1) % 2 ^ 32 := by
  rw [Dev.dropped, Dev.fld_bump_same _ _ _ h0 hw]
  simp [Dev.fld, Dev.reg]

theorem Dev.dropped_onlyFlds (h0 : f.lo = 0) (hw : f.width = 32) :
    d.OnlyFlds (d.dropped p e rest f) [(Base.ses, f)] :=
  (Dev.OnlyFlds.of_regs (by simp)).bump (List.mem_singleton_self _) h0 hw

end

/-! ### The branches of the commit -/

/-- Only a SESSION_OPEN frame has an opening phase. -/
theorem openPhase_eq_none {s : SkpFrame} (h : s.hdr.opcode.toNat ≠ Op.sessionOpen) : openPhase s = none := by
  simp [openPhase, h]

section
variable {d : Dev} {p : PortId} {since : Nat} {e : RxEnt} {rest : List RxEnt}
variable (hq : (d.port p).rxq = e :: rest) (hr : d.resetting .sessionEngine = false) (ha : e.act ≠ 1)
include hq hr ha

/-- R84: a frame with a bad header is dropped. -/
theorem commit_of_hdrBad (hb : hdrBad e.skp (d.ctx (e.skp.hdr.session.toNat % 16384)) = true) :
    doFragmentCommit p since d = d.dropped p e rest F.SES_HDR_DROP_COUNT := by
  rw [← d.unqueued_resetting p rest] at hr
  rw [← d.unqueued_ctx p rest] at hb
  unfold doFragmentCommit
  simp only [hq]
  rw [← Dev.unqueued, if_neg (by simp [hr]), if_neg ha, if_pos hb, Dev.dropped]

/-- R109: a phase 1 frame goes to the session engine, whatever its session. -/
theorem commit_of_phase1 (hb : hdrBad e.skp (d.ctx (e.skp.hdr.session.toNat % 16384)) = false)
    (h1 : openPhase e.skp = some 1) : doFragmentCommit p since d = (d.unqueued p rest).commitOpen1 p e := by
  rw [← d.unqueued_resetting p rest] at hr
  rw [← d.unqueued_ctx p rest] at hb
  unfold doFragmentCommit
  simp only [hq]
  rw [← Dev.unqueued, if_neg (by simp [hr]), if_neg ha, if_neg (ne_true_of_eq_false hb), if_pos h1]

/-- R105: a frame of a session without a context is dropped. -/
theorem commit_of_noCtx (hb : hdrBad e.skp none = false)
    (hc : d.ctx (e.skp.hdr.session.toNat % 16384) = none) (h1 : openPhase e.skp ≠ some 1) :
    doFragmentCommit p since d = d.dropped p e rest F.SES_TUPLE_DROP_COUNT := by
  rw [← d.unqueued_resetting p rest] at hr
  rw [← d.unqueued_ctx p rest] at hc
  unfold doFragmentCommit
  simp only [hq]
  rw [← Dev.unqueued, if_neg (by simp [hr]), if_neg ha, hc, if_neg (by simp [hb]), if_neg h1, Dev.dropped]

/-- R105, R112: a frame of its session's peer, whose tag verifies, belongs to the session. -/
theorem commit_of_session {c : Ctx} (hb : hdrBad e.skp (some c) = false)
    (hc : d.ctx (e.skp.hdr.session.toNat % 16384) = some c) (h1 : openPhase e.skp = none)
    (ht : tupleBad c p e = false) (hp : tagPrevious c e.skp = false) (hk : tagCurrent c e.skp = true) :
    doFragmentCommit p since d =
      (d.unqueued p rest).commitMsg (e.skp.hdr.session.toNat % 16384) c e since := by
  rw [← d.unqueued_resetting p rest] at hr
  rw [← d.unqueued_ctx p rest] at hc
  unfold doFragmentCommit
  simp only [hq]
  rw [← Dev.unqueued, if_neg (by simp [hr]), if_neg ha, hc, if_neg (by simp [hb]), if_neg (by simp [h1])]
  simp [h1, ht, hp, hk]

end

/-! ### Phase 1 messages -/

section
variable (d : Dev) (p : PortId) (e : RxEnt)

/-- R109: a phase 1 message within its limit waits for the session engine. -/
theorem Dev.commitOpen1_waits (h : e.skp.hdr.msgLen.toNat ≤ msgLimit Op.sessionOpen) :
    ∃ o : OpenMsg, d.commitOpen1 p e =
        { d.giveCells e.cells e.cells7 with ses := { d.ses with opens := d.ses.opens ++ [o] } } ∧
      o.payload = e.skp.payload ∧ o.port = p ∧ o.ip = e.srcIp ∧ o.udp = e.srcUdp ∧
      o.sid = e.skp.hdr.session.toNat % 16384 := by
  unfold Dev.commitOpen1
  simp only
  rw [if_neg (Nat.not_lt.mpr h), Dev.giveCells_ses]
  exact ⟨_, rfl, rfl, rfl, rfl, rfl, rfl⟩

/-- R89, R128: a phase 1 message past its limit is answered with TOO_LARGE. -/
theorem Dev.commitOpen1_tooLarge (h : msgLimit Op.sessionOpen < e.skp.hdr.msgLen.toNat) :
    ∃ x : TxEnt, d.commitOpen1 p e = (d.giveCells e.cells e.cells7).enqueue p x ∧
      x.item = .refusal2 St.tooLarge e.skp.hdr.tag.toNat e.skp.hdr.keySpace.toNat e.srcIp e.srcUdp := by
  unfold Dev.commitOpen1 Dev.sendRefusal2
  simp only
  rw [if_pos h]
  exact ⟨_, rfl, rfl⟩

end

/-! ### ACK messages -/

/-- Nothing of the ports, the dispatcher, the swaths or the other sessions changes. -/
structure Dev.OnlySession (d d' : Dev) (sid : Nat) : Prop where
  port : ∀ q, d'.port q = d.port q
  disp : d'.disp = d.disp
  sws : d'.sws = d.sws
  ctx : d.OnlyCtx d' sid

theorem Dev.OnlySession.refl (d : Dev) (sid : Nat) : d.OnlySession d sid :=
  ⟨fun _ => rfl, rfl, rfl, fun _ _ => rfl⟩

theorem Dev.OnlySession.trans {d e f : Dev} {sid : Nat} (h : d.OnlySession e sid) (k : e.OnlySession f sid) :
    d.OnlySession f sid :=
  ⟨fun q => (k.port q).trans (h.port q), k.disp.trans h.disp, k.sws.trans h.sws,
    fun i hi => (k.ctx i hi).trans (h.ctx i hi)⟩

theorem Dev.OnlySession.updCtx (d : Dev) (sid : Nat) (f : Ctx → Ctx) : d.OnlySession (d.updCtx sid f) sid :=
  ⟨by simp, by simp, by simp, fun i hi => d.updCtx_ctx_ne sid i f (Ne.symm hi)⟩

theorem Dev.OnlySession.raise (d : Dev) (sid k : Nat) : d.OnlySession (d.raise k) sid :=
  ⟨by simp, by simp, by simp, fun _ _ => by simp⟩

/-- A context whose peer has been heard: resending goes on (R100), and its number, its epoch, its state and the ACK
messages that wait are as they were. -/
structure Ctx.Heard (c c' : Ctx) : Prop where
  paused : c'.paused = false
  acks : c'.acks = c.acks
  epoch : c'.epoch = c.epoch
  rxNext : c'.rxNext = c.rxNext
  st : c'.st = c.st

/-- The drive after a session has heard its peer. -/
def Dev.Hears (d d' : Dev) (sid : Nat) (c : Ctx) : Prop :=
  d.OnlySession d' sid ∧ ∃ c', d'.ctx sid = some c' ∧ c.Heard c'

theorem Dev.Hears.restart {d : Dev} {sid : Nat} {c : Ctx} (hc : d.ctx sid = some c) :
    d.Hears (d.restart sid) sid c :=
  ⟨.updCtx .., _, (d.updCtx_ctx sid _).trans (congrArg _ hc), ⟨rfl, rfl, rfl, rfl, rfl⟩⟩

section
variable {d d' : Dev} {sid : Nat} {c : Ctx} (h : d.Hears d' sid c)
include h

theorem Dev.Hears.updCtx {f : Ctx → Ctx} (hf : ∀ x, c.Heard x → c.Heard (f x)) :
    d.Hears (d'.updCtx sid f) sid c := by
  obtain ⟨ho, x, hx, hh⟩ := h
  exact ⟨ho.trans (.updCtx ..), f x, by simp [hx], hf x hh⟩

/-- R113: REKEY_DUE is set or not, and a source may be raised for it. -/
theorem Dev.Hears.noteRekeyDue (n : Nat) : d.Hears (d'.noteRekeyDue sid n) sid c := by
  obtain ⟨ho, x, hx, hh⟩ := id h
  unfold Dev.noteRekeyDue
  simp only [hx]
  split
  · have hu := h.updCtx (f := fun x => { x with rekeyDue := true })
      fun _ hy => ⟨hy.paused, hy.acks, hy.epoch, hy.rxNext, hy.st⟩
    exact ⟨hu.1.trans (.raise ..), by simpa using hu.2⟩
  · exact h

/-- R107: only a CLOSING context becomes FREE. -/
theorem Dev.Hears.freeIfAcked (hs : c.st ≠ .closing) : d.Hears (d'.freeIfAcked sid) sid c := by
  obtain ⟨-, x, hx, hh⟩ := id h
  rw [Dev.freeIfAcked]
  simpa [hx, hh.st, hs] using h

end

/-- R98: the header's ACK releases sent fragments. -/
theorem Ctx.Heard.ackUpTo {c x : Ctx} (h : c.Heard x) (a : Nat) : c.Heard (x.ackUpTo a) := by
  unfold Ctx.ackUpTo
  split
  · exact h
  · exact ⟨h.paused, h.acks, h.epoch, h.rxNext, h.st⟩

theorem Dev.touch_hears {d : Dev} {sid : Nat} {c : Ctx} (e : RxEnt) (hc : d.ctx sid = some c)
    (hs : c.st ≠ .closing) : d.Hears (d.touch sid c e) sid c := by
  unfold Dev.touch
  simp only
  generalize hd : Dev.noteRekeyDue _ _ _ = d'
  have hn : d.Hears d' sid c := by
    rw [← hd]
    refine .noteRekeyDue (.updCtx (.restart hc) ?_) _
    exact fun _ h => ⟨h.paused, h.acks, h.epoch, h.rxNext, h.st⟩
  split
  · exact (hn.updCtx fun _ h => h.ackUpTo _).freeIfAcked hs
  · exact hn

/-- R97, Table 3-4: a well-formed ACK message joins those of its session that wait. -/
theorem Dev.commitMsg_of_ack {d : Dev} {sid since : Nat} {c : Ctx} {e : RxEnt}
    (hop : e.skp.hdr.opcode.toNat = Op.ack) (hb : hdrBreaches c e.skp.hdr = 0)
    (hf : fragFits (InMsg.fresh e) e.skp.hdr = true) (h1 : e.skp.hdr.fragCount = 1) (ha : ackShape e = true) :
    d.commitMsg sid c e since = ((d.touch sid c e).updCtx sid fun x =>
      { x with acks := x.acks ++ [(x.epoch, e.skp.payload)] }).giveCells e.cells e.cells7 := by
  unfold Dev.commitMsg
  simp only
  rw [if_neg (by simp [hb]), if_pos hop, if_neg (by simp [hf, h1]), if_neg (by simp [hb, ha])]

/-! ### The statement -/

/-- A commit on a running drive is `doFragmentCommit`. -/
theorem completes_fragmentCommit {s : State} {p : PortId} {since : Nat} {P : Dev → Prop}
    (hs : s.alive) (h : P (doFragmentCommit p since s.dev)) : Completes (.fragmentCommit ⟨p, since⟩) s P :=
  completes_live hs rfl h

/-- Settles O7: each clause is one branch of the commit. -/
theorem committedFragmentsGoWhereTheyBelong : Obligations.CommittedFragmentsGoWhereTheyBelong := by
  unfold Obligations.CommittedFragmentsGoWhereTheyBelong
  intro s p since e rest hs hq hr ha
  refine ⟨fun hb => ?header, fun hb hc hop => ?stranger, fun hb h1 hl => ?waits, fun hb h1 hl => ?tooLarge,
    fun c hc hb hop ht hp hk hbr hf hn hsh hcl => ?ack⟩
  case header =>
    apply completes_fragmentCommit hs
    rw [commit_of_hdrBad hq hr ha hb]
    exact ⟨by simp, Dev.dropped_fld _ _ _ _ _ rfl rfl, by simp, by simp, Dev.dropped_onlyFlds _ _ _ _ _ rfl rfl,
      by simp, by simp⟩
  case stranger =>
    apply completes_fragmentCommit hs
    rw [commit_of_noCtx hq hr ha hb hc (by simp [openPhase_eq_none hop])]
    exact ⟨by simp, Dev.dropped_fld _ _ _ _ _ rfl rfl, by simp, by simp, by simp⟩
  case waits =>
    apply completes_fragmentCommit hs
    rw [commit_of_phase1 hq hr ha hb h1]
    obtain ⟨o, heq, ho⟩ := (s.dev.unqueued p rest).commitOpen1_waits p e hl
    rw [heq]
    refine ⟨?_, ⟨o, by simp, ho⟩, by simp, by simp⟩
    exact ((s.dev.unqueued p rest).giveCells_rxq _ _ p).trans (by simp)
  case tooLarge =>
    apply completes_fragmentCommit hs
    rw [commit_of_phase1 hq hr ha hb h1]
    obtain ⟨x, heq, hx⟩ := (s.dev.unqueued p rest).commitOpen1_tooLarge p e hl
    rw [heq, Dev.enqueue_port]
    exact ⟨by simp, ⟨x, by simp, hx⟩, by simp, by simp⟩
  case ack =>
    apply completes_fragmentCommit hs
    have hno : openPhase e.skp = none := openPhase_eq_none (by simp [hop, Op.ack, Op.sessionOpen])
    rw [commit_of_session hq hr ha hb hc hno ht hp hk, Dev.commitMsg_of_ack hop hbr hf hn hsh]
    obtain ⟨ho, c', hc', hh⟩ := (s.dev.unqueued p rest).touch_hears e (by simpa using hc) hcl
    refine ⟨by simp [ho.port], ⟨{ c' with acks := c'.acks ++ [(c'.epoch, e.skp.payload)] }, by simp [hc'],
      by simp [hh.acks, hh.epoch], hh.paused, hh.rxNext, hh.st⟩, fun i hi => ?_, by simp [ho.disp], by simp [ho.sws]⟩
    rw [Dev.giveCells_ctx, Dev.updCtx_ctx_ne _ _ _ _ (Ne.symm hi), ho.ctx i hi, Dev.unqueued_ctx]

end Sys2Proof.Machine
end
